-- ==== Sys2Proof/Word.lean ====
section
/-! DEFINITION. The widths of the machine's words: a command word, a coefficient, a sample (00_scope.md R5, R10). -/

namespace Sys2Proof

/-- A 32-bit command word, also a 32-bit word of the host port (00_scope.md R5 `CMD_WIDTH`, 10_state.md R46). -/
abbrev Word := BitVec 32

/-- A coefficient, the `i32` of 00_scope.md R10: `+`, `-`, `*` and `<<<` wrap modulo 2^32, `sshiftRight` is the
arithmetic shift of R11. -/
abbrev Coef := BitVec 32

/-- A sample, the `u8` of 00_scope.md R10; also one byte of the sample memory. -/
abbrev Byte := BitVec 8

end Sys2Proof
end

