-- ==== Sys2Proof/Syntax.lean ====
section
/-! DEFINITION. The commands of JPD-CS 1.0, one constructor per row of spec/opcode_table.json (30_encoding.md R96), and
the names of the 26 control registers (10_state.md R26). Every operand field has the width its format gives it (R91 to
R93), so that a term holds exactly the bits of its word. -/

namespace Sys2Proof

/-- The commands. The docstrings name the rule that gives the command its effect. -/
inductive Instr where
  /-- NOP, 40_control_data.md R110. -/
  | nop
  /-- END, R111. -/
  | endCmd
  /-- WRL, R112: control register number, immediate. -/
  | wrl (idx : BitVec 8) (imm : BitVec 16)
  /-- WRH, R113: control register number, immediate. -/
  | wrh (idx : BitVec 8) (imm : BitVec 16)
  /-- SETC, R114: entry of `C`, level. -/
  | setc (i : BitVec 4) (imm : BitVec 16)
  /-- CLRC, R115. -/
  | clrc
  /-- SETS, R116: entry of `S`, sample. -/
  | sets (i : BitVec 3) (imm : BitVec 8)
  /-- ZIGZAG, 41_transform.md R131. -/
  | zigzag
  /-- IDCT4, R132. -/
  | idct4
  /-- IHAD4, R133. -/
  | ihad4
  /-- IHAD2, R134. -/
  | ihad2
  /-- MVDC, R135. -/
  | mvdc
  /-- MRGDC, R136: entry of `DC`. -/
  | mrgdc (k : BitVec 4)
  /-- IDCT8, reserved, R137: any low bits. -/
  | idct8 (ignored : BitVec 24)
  /-- QPADD, 42_dequant.md R153: signed delta. -/
  | qpadd (delta : BitVec 8)
  /-- CQP, R154: source, destination, plane (`false` Cb, `true` Cr). -/
  | cqp (src dst : BitVec 2) (plane : Bool)
  /-- DQAC, R155: `skipdc`, `qsel` (`false` `QPY`, `true` `QPC`). -/
  | dqac (skipdc qsel : Bool)
  /-- DQDCL, R156. -/
  | dqdcl
  /-- DQDCC, R157. -/
  | dqdcc
  /-- MCL, 43_interp.md R175: height code, width code. -/
  | mcl (hc wc : BitVec 2)
  /-- MCC, R177: height code, width code. -/
  | mcc (hc wc : BitVec 2)
  /-- MCBI, reserved, R178: any low bits. -/
  | mcbi (ignored : BitVec 24)
  /-- BS, 44_deblock.md R191: the edge is a macroblock boundary. -/
  | bs (mbedge : Bool)
  /-- DBL, R198: the line is a chroma line. -/
  | dbl (chroma : Bool)
  /-- LDLN, R199: `false` a vertical edge (the line is a row), `true` a horizontal edge (a column). -/
  | ldln (dir : Bool)
  /-- STLN, R200: direction as LDLN. -/
  | stln (dir : Bool)
  deriving DecidableEq, Repr

/-- The 26 control registers in the order of their numbers 0x00 .. 0x19 (10_state.md R26). -/
inductive CReg where
  | qpy | cqpoCb | cqpoCr | qpc | alphaOff | betaOff | dbQpp | dbQpq | dbBs | dbX | dbY
  | bspInfo | bspMv | bsqInfo | bsqMv | mcX | mcY
  | refBase | refStride | refW | refH | refValid
  | curBase | curStride | curW | curH
  deriving DecidableEq, Repr

end Sys2Proof
end

