-- ==== Sys2Proof/Decode.lean ====
section
/-! DEFINITION. Command words to commands and back (30_encoding.md R90 to R98, R102). The decoder is total: a word that
matches no row of R96 is rejected by name, and the sequencer turns both names into ParseError (R97). A word that matches
a row decodes to that row's command, whatever its fields hold: the field checks of R105 step 3 are the command's own
(log 11). -/

namespace Sys2Proof

/-- Why a word is no command (30_encoding.md R97), or why bytes hold no word. -/
inductive DecodeError where
  /-- The opcode byte is not one of the 26 (U1). -/
  | undefinedOpcode
  /-- A defined opcode with a must-be-zero bit set (U3). -/
  | reservedBitSet
  /-- Fewer than four bytes. -/
  | truncated
  deriving DecidableEq, Repr

/-- One row of the opcode map: the word selects the row when `w &&& mask = value` (30_encoding.md R96). -/
structure OpcodeRow where
  mnemonic : String
  value : Word
  mask : Word
  deriving DecidableEq, Repr

/-- The opcode map of 30_encoding.md R96. -/
def opcodeMap : List OpcodeRow :=
  [⟨"NOP", 0x00000000, 0xFFFFFFFF⟩, ⟨"END", 0x01000000, 0xFFFFFFFF⟩, ⟨"WRL", 0x02000000, 0xFF000000⟩,
   ⟨"WRH", 0x03000000, 0xFF000000⟩, ⟨"SETC", 0x04000000, 0xFFF00000⟩, ⟨"CLRC", 0x05000000, 0xFFFFFFFF⟩,
   ⟨"SETS", 0x06000000, 0xFFF8FF00⟩] ++
  [⟨"ZIGZAG", 0x10000000, 0xFFFFFFFF⟩, ⟨"IDCT4", 0x11000000, 0xFFFFFFFF⟩, ⟨"IHAD4", 0x12000000, 0xFFFFFFFF⟩,
   ⟨"IHAD2", 0x13000000, 0xFFFFFFFF⟩, ⟨"MVDC", 0x14000000, 0xFFFFFFFF⟩, ⟨"MRGDC", 0x15000000, 0xFFFFFFF0⟩,
   ⟨"IDCT8", 0x18000000, 0xFF000000⟩] ++
  [⟨"QPADD", 0x20000000, 0xFFFFFF00⟩, ⟨"CQP", 0x21000000, 0xFFFFFFE0⟩, ⟨"DQAC", 0x22000000, 0xFFFFFFFC⟩,
   ⟨"DQDCL", 0x23000000, 0xFFFFFFFF⟩, ⟨"DQDCC", 0x24000000, 0xFFFFFFFF⟩] ++
  [⟨"MCL", 0x30000000, 0xFFFFFFF0⟩, ⟨"MCC", 0x31000000, 0xFFFFFFF0⟩, ⟨"MCBI", 0x38000000, 0xFF000000⟩] ++
  [⟨"BS", 0x40000000, 0xFFFFFFFE⟩, ⟨"DBL", 0x41000000, 0xFFFFFFFE⟩, ⟨"LDLN", 0x42000000, 0xFFFFFFFE⟩,
   ⟨"STLN", 0x43000000, 0xFFFFFFFE⟩]

/-- The word selects the row (30_encoding.md R96). -/
def OpcodeRow.selects (r : OpcodeRow) (w : Word) : Bool := w &&& r.mask == r.value

/-- The opcode byte, bits [31:24] in every format (30_encoding.md R90). -/
def opcodeOf (w : Word) : BitVec 8 := w.extractLsb' 24 8

/-- The command `i` when the `n` bits of `w` from bit `lo` up, which must be 0, are 0 (30_encoding.md R97, R99). -/
def whenZero (w : Word) (lo n : Nat) (i : Instr) : Except DecodeError Instr :=
  if w.extractLsb' lo n = 0 then .ok i else .error .reservedBitSet

/-- The fields of a word whose opcode is `op`, by the format of its row (30_encoding.md R91 to R93). -/
def decodeFields (op : Nat) (w : Word) : Except DecodeError Instr :=
  match op with
  | 0x00 => whenZero w 0 24 .nop
  | 0x01 => whenZero w 0 24 .endCmd
  | 0x02 => .ok (.wrl (w.extractLsb' 16 8) (w.extractLsb' 0 16))
  | 0x03 => .ok (.wrh (w.extractLsb' 16 8) (w.extractLsb' 0 16))
  | 0x04 => whenZero w 20 4 (.setc (w.extractLsb' 16 4) (w.extractLsb' 0 16))
  | 0x05 => whenZero w 0 24 .clrc
  | 0x06 =>
    if w.extractLsb' 19 5 = 0 then whenZero w 8 8 (.sets (w.extractLsb' 16 3) (w.extractLsb' 0 8))
    else .error .reservedBitSet
  | 0x10 => whenZero w 0 24 .zigzag
  | 0x11 => whenZero w 0 24 .idct4
  | 0x12 => whenZero w 0 24 .ihad4
  | 0x13 => whenZero w 0 24 .ihad2
  | 0x14 => whenZero w 0 24 .mvdc
  | 0x15 => whenZero w 4 20 (.mrgdc (w.extractLsb' 0 4))
  | 0x18 => .ok (.idct8 (w.extractLsb' 0 24))
  | 0x20 => whenZero w 8 16 (.qpadd (w.extractLsb' 0 8))
  | 0x21 => whenZero w 5 19 (.cqp (w.extractLsb' 3 2) (w.extractLsb' 1 2) (w.getLsbD 0))
  | 0x22 => whenZero w 2 22 (.dqac (w.getLsbD 1) (w.getLsbD 0))
  | 0x23 => whenZero w 0 24 .dqdcl
  | 0x24 => whenZero w 0 24 .dqdcc
  | 0x30 => whenZero w 4 20 (.mcl (w.extractLsb' 2 2) (w.extractLsb' 0 2))
  | 0x31 => whenZero w 4 20 (.mcc (w.extractLsb' 2 2) (w.extractLsb' 0 2))
  | 0x38 => .ok (.mcbi (w.extractLsb' 0 24))
  | 0x40 => whenZero w 1 23 (.bs (w.getLsbD 0))
  | 0x41 => whenZero w 1 23 (.dbl (w.getLsbD 0))
  | 0x42 => whenZero w 1 23 (.ldln (w.getLsbD 0))
  | 0x43 => whenZero w 1 23 (.stln (w.getLsbD 0))
  | _ => .error .undefinedOpcode

/-- The command a word is, or why it is none (30_encoding.md R96, R97). -/
def decode (w : Word) : Except DecodeError Instr := decodeFields (opcodeOf w).toNat w

/-- A field's value at bit `lo` of a word. -/
def field {n : Nat} (lo : Nat) (v : BitVec n) : Word := v.setWidth 32 <<< lo

/-- A one-bit field's value at bit `lo` of a word. -/
def flag (lo : Nat) (b : Bool) : Word := field lo (BitVec.ofBool b)

/-- The word of a command: opcode in [31:24], fields by formats Z, I, F, unused bits 0 (30_encoding.md R91 to R93). It is
the word a fault of the command records in `FAULT_CMD` (60_exceptions.md R225). -/
def encode : Instr → Word
  | .nop => 0x00000000
  | .endCmd => 0x01000000
  | .wrl idx imm => 0x02000000 ||| field 16 idx ||| field 0 imm
  | .wrh idx imm => 0x03000000 ||| field 16 idx ||| field 0 imm
  | .setc i imm => 0x04000000 ||| field 16 i ||| field 0 imm
  | .clrc => 0x05000000
  | .sets i imm => 0x06000000 ||| field 16 i ||| field 0 imm
  | .zigzag => 0x10000000
  | .idct4 => 0x11000000
  | .ihad4 => 0x12000000
  | .ihad2 => 0x13000000
  | .mvdc => 0x14000000
  | .mrgdc k => 0x15000000 ||| field 0 k
  | .idct8 x => 0x18000000 ||| field 0 x
  | .qpadd delta => 0x20000000 ||| field 0 delta
  | .cqp src dst plane => 0x21000000 ||| field 3 src ||| field 1 dst ||| flag 0 plane
  | .dqac skipdc qsel => 0x22000000 ||| flag 1 skipdc ||| flag 0 qsel
  | .dqdcl => 0x23000000
  | .dqdcc => 0x24000000
  | .mcl hc wc => 0x30000000 ||| field 2 hc ||| field 0 wc
  | .mcc hc wc => 0x31000000 ||| field 2 hc ||| field 0 wc
  | .mcbi x => 0x38000000 ||| field 0 x
  | .bs mbedge => 0x40000000 ||| flag 0 mbedge
  | .dbl chroma => 0x41000000 ||| flag 0 chroma
  | .ldln dir => 0x42000000 ||| flag 0 dir
  | .stln dir => 0x43000000 ||| flag 0 dir

/-- A word as bytes, least significant first (30_encoding.md R102). -/
def wordBytes (w : Word) : List Byte :=
  [w.extractLsb' 0 8, w.extractLsb' 8 8, w.extractLsb' 16 8, w.extractLsb' 24 8]

/-- The word whose bytes are `b0` (least significant) to `b3` (30_encoding.md R102). -/
def wordOfBytes (b0 b1 b2 b3 : Byte) : Word := field 24 b3 ||| field 16 b2 ||| field 8 b1 ||| field 0 b0

/-- The command at the front of stored bytes and the bytes after it (30_encoding.md R90, R102). -/
def decodeBytes : List Byte → Except DecodeError (Instr × List Byte)
  | b0 :: b1 :: b2 :: b3 :: rest =>
    match decode (wordOfBytes b0 b1 b2 b3) with
    | .ok i => .ok (i, rest)
    | .error e => .error e
  | _ => .error .truncated

/-- The word the host of the pipeline means by the low `nbits` bits of `w`: every bit above is 0. -/
def tableWord (nbits w : Nat) : Word := BitVec.ofNat 32 (w % 2 ^ nbits)

/-- The command the decoder reads from an instruction of the opcode table whose bits are `w`: the word laid out as
little-endian bytes (30_encoding.md R102) and decoded. -/
def decodeTableWord (nbits w : Nat) : Option Instr :=
  match decodeBytes (wordBytes (tableWord nbits w)) with
  | .ok (i, _) => some i
  | .error _ => none

end Sys2Proof
end

