-- ==== Sys2Proof/Machine/Arith.lean ====
section
/-! DEFINITION. The arithmetic of 00_scope.md R10 to R12 on mathematical integers, and the narrowing to the machine's
words. -/

namespace Sys2Proof.Machine

/-- `wrap32` (00_scope.md R10). -/
def wrap32 (v : Int) : Coef := BitVec.ofInt 32 v

/-- `a >> n` on a mathematical integer: `floor(a / 2^n)` (00_scope.md R11). -/
def asr (a : Int) (n : Nat) : Int := a / (2 ^ n : Nat)

/-- `Clip3` (00_scope.md R12). -/
def clip3 (lo hi v : Int) : Int := if v < lo then lo else if hi < v then hi else v

/-- `Clip1`: the clip to the sample range (00_scope.md R12). -/
def clip1 (v : Int) : Int := clip3 0 255 v

/-- `abs` (00_scope.md R12). -/
def iabs (v : Int) : Int := if 0 ≤ v then v else -v

/-- The `u8` of an integer in 0..255 (00_scope.md R10; log 17). -/
def toSample (v : Int) : Byte := BitVec.ofInt 8 v

/-- The integer a sample stands for. -/
def sampleInt (b : Byte) : Int := (b.toNat : Int)

/-- The sum over a row or column of four. -/
def sum4 (f : Fin 4 → Int) : Int := f 0 + f 1 + f 2 + f 3

/-- The table index `Clip3(0, 51, v)` (42_dequant.md R154, 44_deblock.md R194). -/
def clipIndex (v : Int) : Fin 52 := Fin.ofNat 52 (clip3 0 51 v).toNat

end Sys2Proof.Machine
end

