-- ==== Sys2Proof/Config.lean ====
section
/-! DEFINITION. What an implementation fixes (00_scope.md R6, R7) and the free values. The default tables stand in
Sys2Proof/Machine/Tables.lean. -/

namespace Sys2Proof

/-- The parameters of 00_scope.md R6 and the tables of R7, with the shapes R7 states: a bound that is a plain range is
in the type, the others are in `Config.Wf`. -/
structure Config where
  /-- `SM_SIZE`: bytes of the sample memory (R6; log 3). -/
  smSize : Nat
  /-- `CMDQ_DEPTH`: entries of the command queue (R6, 10_state.md R44; log 4). -/
  cmdqDepth : Nat
  /-- `ZIGZAG4x4` (41_transform.md R131). -/
  zigzag4x4 : Vector (Fin 16) 16
  /-- `LEVEL_SCALE`, six rows by `QP mod 6` (42_dequant.md R151). -/
  levelScale : Vector (Vector (Fin 256) 16) 6
  /-- `CHROMA_QP_TAB` (42_dequant.md R152). -/
  chromaQpTab : Vector (Fin 52) 52
  /-- `LUMA_TAPS` (43_interp.md R172). -/
  lumaTaps : Vector Int 6
  /-- `ALPHA_TAB` (44_deblock.md R192). -/
  alphaTab : Vector (Fin 256) 52
  /-- `BETA_TAB` (44_deblock.md R192). -/
  betaTab : Vector (Fin 256) 52
  /-- `TC0_TAB`, columns for `bs` 1, 2, 3 (44_deblock.md R193). -/
  tc0Tab : Vector (Vector (Fin 26) 3) 52
  deriving DecidableEq, Repr

/-- The ranges and shapes of 00_scope.md R6 and R7 that the types do not say: `SM_SIZE` in 1..2^32, `CMDQ_DEPTH >= 1`,
the zig-zag table a permutation, positive level scales, taps that sum to 32. -/
abbrev Config.Wf (c : Config) : Prop :=
  (1 ≤ c.smSize ∧ c.smSize ≤ 2 ^ 32) ∧ 1 ≤ c.cmdqDepth ∧
    c.zigzag4x4.toList.Nodup ∧
    (∀ (m : Fin 6) (i : Fin 16), 0 < (c.levelScale[m][i]).val) ∧
    c.lumaTaps.toList.sum = 32

/-- A free coefficient: draw number, entry. The contents of `C` and `DC` after a reset of a running block
(70_reset_and_hazards.md R251, U6; log 7). -/
opaque Config.freeCoef : Nat → Nat → Coef

/-- A free sample: draw number, entry. The contents of `S` and `PRED` after a reset of a running block (R251, U6;
log 7). -/
opaque Config.freeSample : Nat → Nat → Byte

/-- A free byte of the sample memory: draw number, address. The contents of `SM` after a hard reset of a running block
(R252, U6; log 7). -/
opaque Config.freeSmByte : Nat → Nat → Byte

/-- A free 32-bit word: what a host-port read answers while the block is not quiescent (10_state.md R47, U4; log 8). -/
opaque Config.freePortWord : Nat → Word

end Sys2Proof
end

