-- ==== Sys2Proof/Machine/Tables.lean ====
section
/-! DEFINITION. The default configuration: the tables the spec gives as defaults (00_scope.md R7; every number is marked
there as general knowledge, log 5) and the sizes the spec leaves open (R6; log 3, log 4). -/

namespace Sys2Proof.Machine

/-- The default of `ZIGZAG4x4` (41_transform.md R131). -/
def defaultZigzag4x4 : Vector (Fin 16) 16 := #v[0, 1, 4, 8, 5, 2, 3, 6, 9, 12, 13, 10, 7, 11, 14, 15]

/-- One row of the default `LEVEL_SCALE`, from the three columns of the base table: both indices even, both odd, mixed
(42_dequant.md R151). -/
def levelScaleRow (even odd mixed : Fin 256) : Vector (Fin 256) 16 :=
  #v[even, mixed, even, mixed, mixed, odd, mixed, odd, even, mixed, even, mixed, mixed, odd, mixed, odd]

/-- The default of `LEVEL_SCALE` (42_dequant.md R151). -/
def defaultLevelScale : Vector (Vector (Fin 256) 16) 6 :=
  #v[levelScaleRow 10 16 13, levelScaleRow 11 18 14, levelScaleRow 13 20 16, levelScaleRow 14 23 18,
    levelScaleRow 16 25 20, levelScaleRow 18 29 23]

/-- The default of `CHROMA_QP_TAB` (42_dequant.md R152). -/
def defaultChromaQpTab : Vector (Fin 52) 52 :=
  #v[0, 1, 2, 3, 4, 5, 6, 7, 8, 9, 10, 11, 12, 13, 14, 15, 16, 17, 18, 19, 20, 21, 22, 23, 24, 25, 26, 27, 28, 29,
    29, 30, 31, 32, 32, 33, 34, 34, 35, 35, 36, 36, 37, 37, 37, 38, 38, 38, 39, 39, 39, 39]

/-- The default of `LUMA_TAPS` (43_interp.md R172). -/
def defaultLumaTaps : Vector Int 6 := #v[1, -5, 20, 20, -5, 1]

/-- The default of `ALPHA_TAB` (44_deblock.md R192). -/
def defaultAlphaTab : Vector (Fin 256) 52 :=
  #v[0, 0, 0, 0, 0, 0, 0, 0, 0, 0, 0, 0, 0, 0, 0, 0, 4, 4, 5, 6, 7, 8, 9, 10, 12, 13, 15, 17, 20, 22, 25, 28, 32, 36,
    40, 45, 50, 56, 63, 71, 80, 90, 101, 113, 127, 144, 162, 182, 203, 226, 255, 255]

/-- The default of `BETA_TAB` (44_deblock.md R192). -/
def defaultBetaTab : Vector (Fin 256) 52 :=
  #v[0, 0, 0, 0, 0, 0, 0, 0, 0, 0, 0, 0, 0, 0, 0, 0, 2, 2, 2, 3, 3, 3, 3, 4, 4, 4, 6, 6, 7, 7, 8, 8, 9, 9,
    10, 10, 11, 11, 12, 12, 13, 13, 14, 14, 15, 15, 16, 16, 17, 17, 18, 18]

/-- The default of `TC0_TAB`, rows by `indexA`, columns for `bs` 1, 2, 3 (44_deblock.md R193). -/
def defaultTc0Tab : Vector (Vector (Fin 26) 3) 52 :=
  #v[#v[0, 0, 0], #v[0, 0, 0], #v[0, 0, 0], #v[0, 0, 0], #v[0, 0, 0], #v[0, 0, 0], #v[0, 0, 0], #v[0, 0, 0],
    #v[0, 0, 0], #v[0, 0, 0], #v[0, 0, 0], #v[0, 0, 0], #v[0, 0, 0], #v[0, 0, 0], #v[0, 0, 0], #v[0, 0, 0],
    #v[0, 0, 0], #v[0, 0, 1], #v[0, 0, 1], #v[0, 0, 1], #v[0, 0, 1], #v[0, 1, 1], #v[0, 1, 1], #v[1, 1, 1],
    #v[1, 1, 1], #v[1, 1, 1], #v[1, 1, 1], #v[1, 1, 2], #v[1, 1, 2], #v[1, 1, 2], #v[1, 1, 2], #v[1, 2, 3],
    #v[1, 2, 3], #v[2, 2, 3], #v[2, 2, 4], #v[2, 3, 4], #v[2, 3, 4], #v[3, 3, 5], #v[3, 4, 6], #v[3, 4, 6],
    #v[4, 5, 7], #v[4, 5, 8], #v[4, 6, 9], #v[5, 7, 10], #v[6, 8, 11], #v[6, 8, 13], #v[7, 10, 14], #v[8, 11, 16],
    #v[9, 12, 18], #v[10, 13, 20], #v[11, 15, 23], #v[13, 17, 25]]

/-- The default configuration: the tables above; `SM_SIZE` and `CMDQ_DEPTH`, which the spec leaves open, at values the
model names (DESIGN CHOICE, unsafe where a claim rests on them: log 3, log 4). -/
def defaultConfig : Config where
  smSize := 4096
  cmdqDepth := 64
  zigzag4x4 := defaultZigzag4x4
  levelScale := defaultLevelScale
  chromaQpTab := defaultChromaQpTab
  lumaTaps := defaultLumaTaps
  alphaTab := defaultAlphaTab
  betaTab := defaultBetaTab
  tc0Tab := defaultTc0Tab

end Sys2Proof.Machine
end

