-- ==== Sys2Proof/Machine/State.lean ====
section
/-! DEFINITION. The whole state of the block and of the sample memory it shares with the host (10_state.md R20 to R49,
20_memory.md R70, R71), the reasons the model stops, and the state after reset (70_reset_and_hazards.md R253). -/

namespace Sys2Proof.Machine

/-- `STATE` (10_state.md R41): value 3 never occurs. -/
inductive Status where
  | run
  | done
  | fault
  deriving DecidableEq, Repr

/-- `FAULT_CAUSE` (60_exceptions.md R220): codes 5..7 never occur. -/
inductive FaultCause where
  | none
  | parseError
  | referenceError
  | unsupportedFeatureError
  | bufferSizeError
  deriving DecidableEq, Repr

/-- The 26 control registers, each with the number of stored bits the spec gives it (10_state.md R26). -/
structure CtrlRegs where
  /-- 0x00 `QPY`, R27. -/
  qpy : BitVec 6
  /-- 0x01 `CQPO_CB`, two's complement, R28. -/
  cqpoCb : BitVec 5
  /-- 0x02 `CQPO_CR`, two's complement, R28. -/
  cqpoCr : BitVec 5
  /-- 0x03 `QPC`, R29. -/
  qpc : BitVec 6
  /-- 0x04 `ALPHA_OFF`, two's complement, R30. -/
  alphaOff : BitVec 4
  /-- 0x05 `BETA_OFF`, two's complement, R30. -/
  betaOff : BitVec 4
  /-- 0x06 `DB_QPP`, R31. -/
  dbQpp : BitVec 6
  /-- 0x07 `DB_QPQ`, R31. -/
  dbQpq : BitVec 6
  /-- 0x08 `DB_BS`, R32. -/
  dbBs : BitVec 3
  /-- 0x09 `DB_X`, R33. -/
  dbX : BitVec 16
  /-- 0x0A `DB_Y`, R33. -/
  dbY : BitVec 16
  /-- 0x0B `BSP_INFO`, R34. -/
  bspInfo : BitVec 16
  /-- 0x0C `BSP_MV`, R35. -/
  bspMv : BitVec 32
  /-- 0x0D `BSQ_INFO`, R34. -/
  bsqInfo : BitVec 16
  /-- 0x0E `BSQ_MV`, R35. -/
  bsqMv : BitVec 32
  /-- 0x0F `MC_X`, two's complement, R36. -/
  mcX : BitVec 32
  /-- 0x10 `MC_Y`, two's complement, R36. -/
  mcY : BitVec 32
  /-- 0x11 `REF_BASE`, R37. -/
  refBase : BitVec 32
  /-- 0x12 `REF_STRIDE`, R37. -/
  refStride : BitVec 16
  /-- 0x13 `REF_W`, R37. -/
  refW : BitVec 16
  /-- 0x14 `REF_H`, R37. -/
  refH : BitVec 16
  /-- 0x15 `REF_VALID`, R37. -/
  refValid : BitVec 1
  /-- 0x16 `CUR_BASE`, R38. -/
  curBase : BitVec 32
  /-- 0x17 `CUR_STRIDE`, R38. -/
  curStride : BitVec 16
  /-- 0x18 `CUR_W`, R38. -/
  curW : BitVec 16
  /-- 0x19 `CUR_H`, R38. -/
  curH : BitVec 16
  deriving DecidableEq, Repr

/-- Every control register at 0, its reset value (10_state.md R26, 70_reset_and_hazards.md R253). -/
def CtrlRegs.zero : CtrlRegs :=
  ⟨0, 0, 0, 0, 0, 0, 0, 0, 0, 0, 0, 0, 0, 0, 0, 0, 0, 0, 0, 0, 0, 0, 0, 0, 0, 0⟩

/-- The coefficient file or the DC file: entry `4*i + j` is row `i`, column `j` of a block in raster order (00_scope.md
R9; 10_state.md R20, R24). -/
abbrev Block := Vector Coef 16

/-- The sample-line file: `p3 p2 p1 p0 q0 q1 q2 q3` (10_state.md R22). -/
abbrev Line := Vector Byte 8

/-- The prediction buffer: rows of sixteen samples (10_state.md R25). -/
abbrev Pred := Vector (Vector Byte 16) 16

/-- The machine. -/
structure State where
  /-- The parameters and tables: fixed for the machine, changed by no step (10_state.md R49; log 6). -/
  cfg : Config
  /-- `C`, R20. -/
  coef : Block
  /-- `DC`, R24. -/
  dc : Block
  /-- `S`, R22. -/
  line : Line
  /-- `PRED`, R25: `pred[y][x]`. -/
  pred : Pred
  /-- The control registers, R26. -/
  regs : CtrlRegs
  /-- `CIX`, R40. -/
  cix : Word
  /-- `STATE`, R41. -/
  status : Status
  /-- `FAULT_CAUSE`, R42. -/
  faultCause : FaultCause
  /-- `FAULT_CMD`, R42. -/
  faultCmd : Word
  /-- `FAULT_CIX`, R42. -/
  faultCix : Word
  /-- The command queue, its head the next word to execute, R44. -/
  queue : List Word
  /-- The words of the host's pushes that have not completed because they met a full queue, the oldest first (R44,
  93_implementation_defined.md U13; log 4). -/
  waiting : List Word
  /-- `SM`: the bytes that differ from what an unlisted byte reads as, by rising address (20_memory.md R71; log 2). -/
  sm : List Host.Cell
  /-- The model's own: how many draws of free values were made (log 7, log 8). -/
  freeCtr : Nat
  deriving DecidableEq, Repr

/-- Where the model stops in a host action. No command of the block ever does: a command's fault is a next state
(60_exceptions.md R229). -/
inductive Fault where
  /-- Raised by a host access to a byte of `SM` outside 0 .. `SM_SIZE` - 1, which does not exist (20_memory.md R70).
  Safe. -/
  | smAddressOutside
  deriving DecidableEq, Repr

/-- What the model gives no meaning to. -/
inductive Refusal where
  /-- Raised by no arm now: every command has its meaning. Safe. -/
  | notModelled (mnemonic : String)
  /-- Raised by a host access to `SM` while the block is not quiescent (20_memory.md R81, U5: "refuse"). Safe. -/
  | hostRacesBlock
  deriving DecidableEq, Repr

/-- The state after a hard reset under configuration `cfg` (70_reset_and_hazards.md R253). The data files and the sample
memory, which the spec leaves unspecified, hold the values the log names: zeros (DESIGN CHOICE, unsafe: log 1, log 2). -/
def State.boot (cfg : Config) : State where
  cfg := cfg
  coef := Vector.replicate 16 0
  dc := Vector.replicate 16 0
  line := Vector.replicate 8 0
  pred := Vector.replicate 16 (Vector.replicate 16 0)
  regs := CtrlRegs.zero
  cix := 0
  status := .run
  faultCause := .none
  faultCmd := 0
  faultCix := 0
  queue := []
  waiting := []
  sm := []
  freeCtr := 0

/-- The machine right after reset (70_reset_and_hazards.md R253), with the default configuration. -/
def State.reset : State := State.boot defaultConfig

end Sys2Proof.Machine
end

