-- ==== Sys2Proof/Machine/Ops.lean ====
section
/-! DEFINITION. The named operations over memory and state that every meaning uses: the sample memory, the register
files, the control registers by number, completing a command, entering the fault state and leaving it, and taking the
next word from the command queue. -/

namespace Sys2Proof.Machine

/-! ### The sample memory -/

/-- What a byte of `SM` that nothing has written reads as: the spec leaves the contents at power-on open
(70_reset_and_hazards.md R252); DESIGN CHOICE, unsafe (log 2). -/
def unlistedByte : Byte := 0

/-- The byte at an address: `MemRead(addr, 1)` (00_scope.md R13, 20_memory.md R76). -/
def Memory.read : List Host.Cell → Nat → Byte
  | [], _ => unlistedByte
  | (b, u) :: rest, a => if a = b then u else Memory.read rest a

/-- The memory after `MemWrite(addr, 1, v)` (20_memory.md R76), in canonical form. -/
def Memory.write : List Host.Cell → Nat → Byte → List Host.Cell
  | [], a, v => if v = unlistedByte then [] else [(a, v)]
  | (b, u) :: rest, a, v =>
    if a < b then (if v = unlistedByte then (b, u) :: rest else (a, v) :: (b, u) :: rest)
    else if a = b then (if v = unlistedByte then rest else (a, v) :: rest)
    else (b, u) :: Memory.write rest a v

/-- The canonical form: addresses strictly rising, no entry equal to what an unlisted byte reads as. -/
abbrev Memory.wf (m : List Host.Cell) : Prop :=
  m.Pairwise (fun p q => p.1 < q.1) ∧ ∀ p ∈ m, p.2 ≠ unlistedByte

/-- `MemRead` on the machine's `SM`. -/
def State.memRead (s : State) (a : Nat) : Byte := Memory.read s.sm a

/-- `MemWrite` on the machine's `SM`. -/
def State.memWrite (s : State) (a : Nat) (v : Byte) : State := { s with sm := Memory.write s.sm a v }

/-! ### The register files -/

/-- `C` replaced. -/
def State.withCoef (s : State) (b : Block) : State := { s with coef := b }

/-- `DC` replaced. -/
def State.withDc (s : State) (b : Block) : State := { s with dc := b }

/-- `S` replaced. -/
def State.withLine (s : State) (l : Line) : State := { s with line := l }

/-- `PRED` replaced. -/
def State.withPred (s : State) (p : Pred) : State := { s with pred := p }

/-- The control registers replaced. -/
def State.withRegs (s : State) (g : CtrlRegs) : State := { s with regs := g }

/-- `STATE` replaced. -/
def State.withStatus (s : State) (st : Status) : State := { s with status := st }

/-- Entry `(i, j)` of a block in raster order (00_scope.md R9). -/
def Block.at (b : Block) (i j : Fin 4) : Coef := b[4 * i.val + j.val]'(by omega)

/-- The block whose entry `(i, j)` is `f i j`, in raster order (00_scope.md R9). -/
def Block.make (f : Fin 4 → Fin 4 → Coef) : Block :=
  Vector.ofFn fun n => f ⟨n.val / 4, by omega⟩ ⟨n.val % 4, by omega⟩

/-! ### The control registers by number (10_state.md R26) -/

/-- The control register of a number; numbers 0x1A .. 0xFF name none. -/
def cregOfNum (n : Nat) : Option CReg :=
  match n with
  | 0x00 => some .qpy | 0x01 => some .cqpoCb | 0x02 => some .cqpoCr | 0x03 => some .qpc
  | 0x04 => some .alphaOff | 0x05 => some .betaOff | 0x06 => some .dbQpp | 0x07 => some .dbQpq
  | 0x08 => some .dbBs | 0x09 => some .dbX | 0x0A => some .dbY | 0x0B => some .bspInfo
  | 0x0C => some .bspMv | 0x0D => some .bsqInfo | 0x0E => some .bsqMv | 0x0F => some .mcX
  | 0x10 => some .mcY | 0x11 => some .refBase | 0x12 => some .refStride | 0x13 => some .refW
  | 0x14 => some .refH | 0x15 => some .refValid | 0x16 => some .curBase | 0x17 => some .curStride
  | 0x18 => some .curW | 0x19 => some .curH
  | _ => none

/-- The number of a control register. -/
def cregNum : CReg → Nat
  | .qpy => 0x00 | .cqpoCb => 0x01 | .cqpoCr => 0x02 | .qpc => 0x03 | .alphaOff => 0x04 | .betaOff => 0x05
  | .dbQpp => 0x06 | .dbQpq => 0x07 | .dbBs => 0x08 | .dbX => 0x09 | .dbY => 0x0A | .bspInfo => 0x0B
  | .bspMv => 0x0C | .bsqInfo => 0x0D | .bsqMv => 0x0E | .mcX => 0x0F | .mcY => 0x10 | .refBase => 0x11
  | .refStride => 0x12 | .refW => 0x13 | .refH => 0x14 | .refValid => 0x15 | .curBase => 0x16
  | .curStride => 0x17 | .curW => 0x18 | .curH => 0x19

/-- The 32 bits a control register reads as: zero-extended, the signed ones sign-extended (10_state.md R26). -/
def CtrlRegs.read (g : CtrlRegs) : CReg → Word
  | .qpy => g.qpy.setWidth 32 | .cqpoCb => g.cqpoCb.signExtend 32 | .cqpoCr => g.cqpoCr.signExtend 32
  | .qpc => g.qpc.setWidth 32 | .alphaOff => g.alphaOff.signExtend 32 | .betaOff => g.betaOff.signExtend 32
  | .dbQpp => g.dbQpp.setWidth 32 | .dbQpq => g.dbQpq.setWidth 32 | .dbBs => g.dbBs.setWidth 32
  | .dbX => g.dbX.setWidth 32 | .dbY => g.dbY.setWidth 32 | .bspInfo => g.bspInfo.setWidth 32 | .bspMv => g.bspMv
  | .bsqInfo => g.bsqInfo.setWidth 32 | .bsqMv => g.bsqMv | .mcX => g.mcX | .mcY => g.mcY | .refBase => g.refBase
  | .refStride => g.refStride.setWidth 32 | .refW => g.refW.setWidth 32 | .refH => g.refH.setWidth 32
  | .refValid => g.refValid.setWidth 32 | .curBase => g.curBase | .curStride => g.curStride.setWidth 32
  | .curW => g.curW.setWidth 32 | .curH => g.curH.setWidth 32

/-- The `NZ` field of a `BSP_INFO` or `BSQ_INFO` value (10_state.md R34). -/
def infoNz (v : BitVec 16) : Nat := (v.extractLsb' 2 5).toNat

/-- WRL's write of a register: `none` where the value is not legal (40_control_data.md R112). -/
def CtrlRegs.writeLow (g : CtrlRegs) (r : CReg) (imm : BitVec 16) : Option CtrlRegs :=
  match r with
  | .qpy => if imm.toNat > 51 then none else some { g with qpy := imm.setWidth 6 }
  | .qpc => if imm.toNat > 51 then none else some { g with qpc := imm.setWidth 6 }
  | .dbQpp => if imm.toNat > 51 then none else some { g with dbQpp := imm.setWidth 6 }
  | .dbQpq => if imm.toNat > 51 then none else some { g with dbQpq := imm.setWidth 6 }
  | .cqpoCb => if imm.toInt < -12 ∨ imm.toInt > 12 then none else some { g with cqpoCb := imm.setWidth 5 }
  | .cqpoCr => if imm.toInt < -12 ∨ imm.toInt > 12 then none else some { g with cqpoCr := imm.setWidth 5 }
  | .alphaOff => if imm.toInt < -6 ∨ imm.toInt > 6 then none else some { g with alphaOff := imm.setWidth 4 }
  | .betaOff => if imm.toInt < -6 ∨ imm.toInt > 6 then none else some { g with betaOff := imm.setWidth 4 }
  | .dbBs => if imm.toNat > 4 then none else some { g with dbBs := imm.setWidth 3 }
  | .refValid => if imm.toNat > 1 then none else some { g with refValid := imm.setWidth 1 }
  | .bspInfo => if imm.getLsbD 7 = true ∨ infoNz imm > 16 then none else some { g with bspInfo := imm }
  | .bsqInfo => if imm.getLsbD 7 = true ∨ infoNz imm > 16 then none else some { g with bsqInfo := imm }
  | .dbX => some { g with dbX := imm }
  | .dbY => some { g with dbY := imm }
  | .refStride => some { g with refStride := imm }
  | .refW => some { g with refW := imm }
  | .refH => some { g with refH := imm }
  | .curStride => some { g with curStride := imm }
  | .curW => some { g with curW := imm }
  | .curH => some { g with curH := imm }
  | .bspMv => some { g with bspMv := imm.setWidth 32 }
  | .bsqMv => some { g with bsqMv := imm.setWidth 32 }
  | .mcX => some { g with mcX := imm.setWidth 32 }
  | .mcY => some { g with mcY := imm.setWidth 32 }
  | .refBase => some { g with refBase := imm.setWidth 32 }
  | .curBase => some { g with curBase := imm.setWidth 32 }

/-- A 32-bit register with its high half replaced: `{ imm16, v[15:0] }` (40_control_data.md R113). -/
def withHigh (v : BitVec 32) (imm : BitVec 16) : BitVec 32 :=
  field 16 imm ||| field 0 (v.extractLsb' 0 16)

/-- WRH's write of a register: `none` where the register has no high half (40_control_data.md R113). -/
def CtrlRegs.writeHigh (g : CtrlRegs) (r : CReg) (imm : BitVec 16) : Option CtrlRegs :=
  match r with
  | .bspMv => some { g with bspMv := withHigh g.bspMv imm }
  | .bsqMv => some { g with bsqMv := withHigh g.bsqMv imm }
  | .mcX => some { g with mcX := withHigh g.mcX imm }
  | .mcY => some { g with mcY := withHigh g.mcY imm }
  | .refBase => some { g with refBase := withHigh g.refBase imm }
  | .curBase => some { g with curBase := withHigh g.curBase imm }
  | .qpy | .cqpoCb | .cqpoCr | .qpc | .alphaOff | .betaOff | .dbQpp | .dbQpq | .dbBs | .dbX | .dbY | .bspInfo
  | .bsqInfo | .refStride | .refW | .refH | .refValid | .curStride | .curW | .curH => none

/-! ### Completing a command, entering and leaving the fault state -/

/-- A command that completes advances `CIX` by 1 modulo 2^32 (10_state.md R40, 30_encoding.md R104). -/
def State.complete (s : State) : State := { s with cix := s.cix + 1 }

/-- Fault entry (60_exceptions.md R229): cause, command word and `CIX` captured, `STATE` to FAULT, nothing else. -/
def State.enterFault (s : State) (cause : FaultCause) (w : Word) : State :=
  { s with faultCause := cause, faultCmd := w, faultCix := s.cix, status := .fault }

/-- `raise <Fault>(w)` for the command `i` (00_scope.md R13): the fault state is the next state. -/
def raise (cause : FaultCause) (i : Instr) (s : State) : Host.Outcome State Fault Refusal :=
  .next (s.enterFault cause (encode i))

/-- The fault a rejected word raises: both kinds are ParseError (30_encoding.md R97, R105 step 2). -/
def raiseWord (_e : DecodeError) (w : Word) (s : State) : Host.Outcome State Fault Refusal :=
  .next (s.enterFault .parseError w)

/-- The soft reset (70_reset_and_hazards.md R250 b, R253): status, counters and control registers 0, the queue emptied,
`SM` as it was; the data files unspecified (R251): free values, drawn anew (log 7). A push that still waits is not in the
queue and goes on waiting: it completes once the host has reset the block (U13; log 4). -/
def State.softReset (s : State) : State :=
  { s with
    coef := Vector.ofFn fun i => Config.freeCoef s.freeCtr i.val
    dc := Vector.ofFn fun i => Config.freeCoef s.freeCtr (16 + i.val)
    line := Vector.ofFn fun i => Config.freeSample s.freeCtr i.val
    pred := Vector.ofFn fun y => Vector.ofFn fun x => Config.freeSample s.freeCtr (8 + 16 * y.val + x.val)
    regs := CtrlRegs.zero
    cix := 0
    status := .run
    faultCause := .none
    faultCmd := 0
    faultCix := 0
    queue := []
    freeCtr := s.freeCtr + 1 }

/-- A whole sample memory of free bytes, in canonical form (R252, U6; log 7). -/
def freeSm (draw smSize : Nat) : List Host.Cell :=
  (List.range smSize).filterMap fun a =>
    if Config.freeSmByte draw a = unlistedByte then none else some (a, Config.freeSmByte draw a)

/-- The hard reset of a running block (70_reset_and_hazards.md R250 a, R252): the same effect, and `SM` unspecified as
well: free bytes. The configuration is not affected (R253). -/
def State.hardReset (s : State) : State := { s.softReset with sm := freeSm s.freeCtr s.cfg.smSize }

/-- The host's `ACK` (60_exceptions.md R233): from `DONE` to `RUN`, nothing else changes; without effect otherwise. -/
def State.ack (s : State) : State :=
  match s.status with
  | .done => { s with status := .run }
  | .run | .fault => s

/-! ### The command queue -/

/-- The block is quiescent between two atomic steps (00_scope.md R18). -/
def State.quiescent (s : State) : Bool := s.status != .run || s.queue.isEmpty

/-- The word the sequencer takes and the state with it removed from the queue; `none` when it is not enabled
(30_encoding.md R104). -/
def fetch (s : State) : Option (Word × State) :=
  match s.status, s.queue with
  | .run, w :: rest => some (w, { s with queue := rest })
  | _, _ => none

/-- A word stored where the sequencer takes its next one: at the head of the queue, in place of the head that stands
there, with `STATE` at RUN. -/
def State.putNextWord (s : State) (w : Word) : State := { s with queue := w :: s.queue.tail, status := .run }

end Sys2Proof.Machine
end

