-- ==== Sys2Proof/Machine/Control.lean ====
section
/-! DEFINITION. The control and data-movement commands (40_control_data.md R110 to R116). -/

namespace Sys2Proof.Machine

/-- NOP (R110). -/
def execNop (s : State) : Host.Outcome State Fault Refusal := .next s.complete

/-- END (R111). -/
def execEnd (s : State) : Host.Outcome State Fault Refusal := .next (s.withStatus .done).complete

/-- WRL (R112). -/
def execWrl (idx : BitVec 8) (imm : BitVec 16) (s : State) : Host.Outcome State Fault Refusal :=
  match (cregOfNum idx.toNat).bind fun r => s.regs.writeLow r imm with
  | some g => .next (s.withRegs g).complete
  | none => raise .parseError (.wrl idx imm) s

/-- WRH (R113). -/
def execWrh (idx : BitVec 8) (imm : BitVec 16) (s : State) : Host.Outcome State Fault Refusal :=
  match (cregOfNum idx.toNat).bind fun r => s.regs.writeHigh r imm with
  | some g => .next (s.withRegs g).complete
  | none => raise .parseError (.wrh idx imm) s

/-- SETC (R114). -/
def execSetc (i : BitVec 4) (imm : BitVec 16) (s : State) : Host.Outcome State Fault Refusal :=
  .next (s.withCoef (s.coef.set i.toNat (imm.signExtend 32) i.isLt)).complete

/-- CLRC (R115). -/
def execClrc (s : State) : Host.Outcome State Fault Refusal := .next (s.withCoef (Vector.replicate 16 0)).complete

/-- SETS (R116). -/
def execSets (i : BitVec 3) (imm : BitVec 8) (s : State) : Host.Outcome State Fault Refusal :=
  .next (s.withLine (s.line.set i.toNat imm i.isLt)).complete

end Sys2Proof.Machine
end

