-- ==== Sys2Proof/Machine/Operands.lean ====
section
/-! DEFINITION. The implicit operands of the commands (30_encoding.md R95): the QP registers a field names, the fields of
the boundary-strength inputs, the block sizes, the plane descriptors with their geometry check, the reference sample
fetch and the line of eight samples. -/

namespace Sys2Proof.Machine

/-! ### QP operands (42_dequant.md R154, R155) -/

/-- The value of the register CQP's `src` names: 0 `QPY`, 1 `DB_QPP`, 2 `DB_QPQ`. -/
def cqpSource (src : BitVec 2) (g : CtrlRegs) : Option (BitVec 6) :=
  match src.toNat with
  | 0 => some g.qpy
  | 1 => some g.dbQpp
  | 2 => some g.dbQpq
  | _ => none

/-- The registers with the one CQP's `dst` names written: 0 `QPC`, 1 `DB_QPP`, 2 `DB_QPQ`. -/
def cqpStore (dst : BitVec 2) (v : BitVec 6) (g : CtrlRegs) : Option CtrlRegs :=
  match dst.toNat with
  | 0 => some { g with qpc := v }
  | 1 => some { g with dbQpp := v }
  | 2 => some { g with dbQpq := v }
  | _ => none

/-- The chroma QP offset of a plane: `CQPO_CB` or `CQPO_CR`. -/
def chromaOffset (plane : Bool) (g : CtrlRegs) : Int := if plane then g.cqpoCr.toInt else g.cqpoCb.toInt

/-- The QP DQAC scales by: `QPC` when `qsel` is 1, else `QPY`. -/
def acQp (qsel : Bool) (g : CtrlRegs) : Nat := if qsel then g.qpc.toNat else g.qpy.toNat

/-! ### Boundary-strength inputs (10_state.md R34, R35) -/

/-- `INTRA`, bit 0. -/
def infoIntra (v : BitVec 16) : Bool := v.getLsbD 0

/-- `REFVALID`, bit 1. -/
def infoRefValid (v : BitVec 16) : Bool := v.getLsbD 1

/-- `REFID`, bits [15:8]. -/
def infoRefId (v : BitVec 16) : BitVec 8 := v.extractLsb' 8 8

/-- `MVX`, bits [15:0], two's complement. -/
def mvX (v : BitVec 32) : Int := (v.extractLsb' 0 16).toInt

/-- `MVY`, bits [31:16], two's complement. -/
def mvY (v : BitVec 32) : Int := (v.extractLsb' 16 16).toInt

/-! ### Block sizes (43_interp.md R175, R177, R179) -/

/-- The side length a size code gives: `unit << code`, the unit 4 for MCL and 2 for MCC. -/
def sideLength (unit : Nat) (code : BitVec 2) : Nat := unit <<< code.toNat

/-- The luma partition sizes, width by height (43_interp.md R179). -/
def lumaShapes : List (Nat × Nat) := [(4, 4), (8, 4), (4, 8), (8, 8), (16, 8), (8, 16), (16, 16)]

/-- The chroma block sizes, width by height (43_interp.md R179). -/
def chromaShapes : List (Nat × Nat) := [(2, 2), (4, 2), (2, 4), (4, 4), (8, 4), (4, 8), (8, 8)]

/-! ### Planes (20_memory.md R72) -/

/-- A plane descriptor, on mathematical integers. -/
structure Plane where
  base : Nat
  stride : Nat
  width : Nat
  height : Nat
  deriving DecidableEq, Repr

/-- The reference plane's descriptor (10_state.md R37). -/
def refPlane (g : CtrlRegs) : Plane := ⟨g.refBase.toNat, g.refStride.toNat, g.refW.toNat, g.refH.toNat⟩

/-- The current plane's descriptor (10_state.md R38). -/
def curPlane (g : CtrlRegs) : Plane := ⟨g.curBase.toNat, g.curStride.toNat, g.curW.toNat, g.curH.toNat⟩

/-- `PlaneOK` (20_memory.md R72). -/
def planeOk (p : Plane) (smSize : Nat) : Bool :=
  decide (p.width ≥ 1) && decide (p.height ≥ 1) && decide (p.stride ≥ p.width) &&
    decide (p.base + (p.height - 1) * p.stride + p.width ≤ smSize)

/-- The address of sample `(x, y)` of a plane (20_memory.md R72). -/
def sampleAddr (p : Plane) (x y : Nat) : Nat := p.base + y * p.stride + x

/-- The address a reference fetch at `(x, y)` reads: the coordinates clamped into the plane (43_interp.md R171). -/
def refAddr (p : Plane) (x y : Int) : Nat :=
  sampleAddr p (clip3 0 (p.width - 1) x).toNat (clip3 0 (p.height - 1) y).toNat

/-- `Ref(x, y)` (43_interp.md R171). -/
def refSample (p : Plane) (m : List Host.Cell) (x y : Int) : Int := sampleInt (Memory.read m (refAddr p x y))

/-! ### The line of eight samples (44_deblock.md R199) -/

/-- The line at `(DB_X, DB_Y)` lies inside the current plane: along a row for `dir` 0, down a column for `dir` 1. -/
def lineInside (dir : Bool) (g : CtrlRegs) : Bool :=
  let x : Int := g.dbX.toNat
  let y : Int := g.dbY.toNat
  let w : Int := g.curW.toNat
  let h : Int := g.curH.toNat
  if dir then !(decide (y < 4) || decide (y > h - 4) || decide (x ≥ w))
  else !(decide (x < 4) || decide (x > w - 4) || decide (y ≥ h))

/-- LDLN and STLN pass their checks: the descriptor's geometry and the line's position (44_deblock.md R199). -/
def lineOk (dir : Bool) (s : State) : Bool := planeOk (curPlane s.regs) s.cfg.smSize && lineInside dir s.regs

/-- `addr[k]`, `k` in 0..7, of the line (44_deblock.md R199). -/
def lineAddr (dir : Bool) (g : CtrlRegs) (k : Nat) : Nat :=
  if dir then sampleAddr (curPlane g) g.dbX.toNat (g.dbY.toNat + k - 4)
  else sampleAddr (curPlane g) (g.dbX.toNat + k - 4) g.dbY.toNat

end Sys2Proof.Machine
end

