-- ==== Sys2Proof/Machine/Deblock.lean ====
section
/-! DEFINITION. The deblocking commands (44_deblock.md R191 to R202). -/

namespace Sys2Proof.Machine

/-- The boundary strength of an edge, the first line that applies (R191). -/
def boundaryStrength (mbedge : Bool) (pInfo qInfo : BitVec 16) (pMv qMv : BitVec 32) : Nat :=
  if mbedge = true ∧ (infoIntra pInfo = true ∨ infoIntra qInfo = true) then 4
  else if infoIntra pInfo = true ∨ infoIntra qInfo = true then 3
  else if infoNz pInfo > 0 ∨ infoNz qInfo > 0 then 2
  else if infoRefValid pInfo ≠ infoRefValid qInfo then 1
  else if iabs (mvX pMv - mvX qMv) ≥ 4 ∨ iabs (mvY pMv - mvY qMv) ≥ 4 then 1
  else if infoRefId pInfo ≠ infoRefId qInfo then 1
  else 0

/-- BS (R191). -/
def execBs (mbedge : Bool) (s : State) : Host.Outcome State Fault Refusal :=
  let g := s.regs
  .next (s.withRegs { g with
    dbBs := BitVec.ofNat 3 (boundaryStrength mbedge g.bspInfo g.bsqInfo g.bspMv g.bsqMv) }).complete

/-- `indexA`: the average QP of the two sides plus twice `ALPHA_OFF`, clipped (R194). -/
def indexA (g : CtrlRegs) : Fin 52 :=
  clipIndex (asr ((g.dbQpp.toNat : Int) + g.dbQpq.toNat + 1) 1 + 2 * g.alphaOff.toInt)

/-- `indexB`: the same with `BETA_OFF` (R194). -/
def indexB (g : CtrlRegs) : Fin 52 :=
  clipIndex (asr ((g.dbQpp.toNat : Int) + g.dbQpq.toNat + 1) 1 + 2 * g.betaOff.toInt)

/-- The threshold `alpha` (R194). -/
def alphaOf (c : Config) (g : CtrlRegs) : Int := (c.alphaTab[indexA g].val : Int)

/-- The threshold `beta` (R194). -/
def betaOf (c : Config) (g : CtrlRegs) : Int := (c.betaTab[indexB g].val : Int)

/-- `TC0_TAB[indexA][bs - 1]`, `bs` in 1..3 (R193, R196). -/
def tc0Of (c : Config) (g : CtrlRegs) (bs : Nat) : Int :=
  (c.tc0Tab[indexA g][Fin.ofNat 3 (bs - 1)].val : Int)

/-- `filterSamples`, the decision for one line (R195). -/
def filterSamples (bs : Nat) (alpha beta : Int) (l : Line) : Bool :=
  let p1 := sampleInt l[2]
  let p0 := sampleInt l[3]
  let q0 := sampleInt l[4]
  let q1 := sampleInt l[5]
  bs != 0 && decide (iabs (p0 - q0) < alpha) && decide (iabs (p1 - p0) < beta) && decide (iabs (q1 - q0) < beta)

/-- The clamp `tc` of the normal filter (R196). -/
def normalTc (chroma : Bool) (tc0 beta ap aq : Int) : Int :=
  if chroma then tc0 + 1 else tc0 + (if ap < beta then 1 else 0) + (if aq < beta then 1 else 0)

/-- The `delta` of the normal filter (R196). -/
def normalDelta (tc p1 p0 q0 q1 : Int) : Int := clip3 (-tc) tc (asr (4 * (q0 - p0) + (p1 - q1) + 4) 3)

/-- `p1'` of the normal filter; `q1'` with the roles of the sides exchanged (R196). -/
def normalInner (tc0 p2 p1 p0 q0 : Int) : Int :=
  p1 + clip3 (-tc0) tc0 (asr (p2 + asr (p0 + q0 + 1) 1 - 2 * p1) 1)

/-- The normal filter, `bs` in 1..3 (R196). -/
def normalFilter (chroma : Bool) (beta tc0 : Int) (l : Line) : Line :=
  let p2 := sampleInt l[1]
  let p1 := sampleInt l[2]
  let p0 := sampleInt l[3]
  let q0 := sampleInt l[4]
  let q1 := sampleInt l[5]
  let q2 := sampleInt l[6]
  let ap := iabs (p2 - p0)
  let aq := iabs (q2 - q0)
  let delta := normalDelta (normalTc chroma tc0 beta ap aq) p1 p0 q0 q1
  #v[l[0], l[1],
    if chroma = false ∧ ap < beta then toSample (normalInner tc0 p2 p1 p0 q0) else l[2],
    toSample (clip1 (p0 + delta)),
    toSample (clip1 (q0 - delta)),
    if chroma = false ∧ aq < beta then toSample (normalInner tc0 q2 q1 q0 p0) else l[5],
    l[6], l[7]]

/-- The side of the strong filter nearest the edge, long form: `p0'`, or `q0'` with the sides exchanged (R197). -/
def strongLong0 (p2 p1 p0 q0 q1 : Int) : Int := asr (p2 + 2 * p1 + 2 * p0 + 2 * q0 + q1 + 4) 3

/-- `p1'` of the long form (R197). -/
def strongLong1 (p2 p1 p0 q0 : Int) : Int := asr (p2 + p1 + p0 + q0 + 2) 2

/-- `p2'` of the long form (R197). -/
def strongLong2 (p3 p2 p1 p0 q0 : Int) : Int := asr (2 * p3 + 3 * p2 + p1 + p0 + q0 + 4) 3

/-- `p0'` of the short form (R197). -/
def strongShort0 (p1 p0 q1 : Int) : Int := asr (2 * p1 + p0 + q1 + 2) 2

/-- The strong filter, `bs` 4 (R197). -/
def strongFilter (chroma : Bool) (alpha beta : Int) (l : Line) : Line :=
  let p3 := sampleInt l[0]
  let p2 := sampleInt l[1]
  let p1 := sampleInt l[2]
  let p0 := sampleInt l[3]
  let q0 := sampleInt l[4]
  let q1 := sampleInt l[5]
  let q2 := sampleInt l[6]
  let q3 := sampleInt l[7]
  let small := decide (iabs (p0 - q0) < asr alpha 2 + 2)
  let pLong := !chroma && decide (iabs (p2 - p0) < beta) && small
  let qLong := !chroma && decide (iabs (q2 - q0) < beta) && small
  #v[l[0],
    if pLong then toSample (strongLong2 p3 p2 p1 p0 q0) else l[1],
    if pLong then toSample (strongLong1 p2 p1 p0 q0) else l[2],
    toSample (if pLong then strongLong0 p2 p1 p0 q0 q1 else strongShort0 p1 p0 q1),
    toSample (if qLong then strongLong0 q2 q1 q0 p0 p1 else strongShort0 q1 q0 p1),
    if qLong then toSample (strongLong1 q2 q1 q0 p0) else l[5],
    if qLong then toSample (strongLong2 q3 q2 q1 q0 p0) else l[6],
    l[7]]

/-- The line after DBL (R198). -/
def deblockLine (c : Config) (g : CtrlRegs) (chroma : Bool) (l : Line) : Line :=
  let bs := g.dbBs.toNat
  let alpha := alphaOf c g
  let beta := betaOf c g
  if filterSamples bs alpha beta l = false then l
  else if bs < 4 then normalFilter chroma beta (tc0Of c g bs) l
  else strongFilter chroma alpha beta l

/-- DBL (R198). -/
def execDbl (chroma : Bool) (s : State) : Host.Outcome State Fault Refusal :=
  .next (s.withLine (deblockLine s.cfg s.regs chroma s.line)).complete

/-- The eight samples of the line in the current plane (R199). -/
def loadLine (dir : Bool) (s : State) : Line := Vector.ofFn fun k => s.memRead (lineAddr dir s.regs k.val)

/-- LDLN (R199). -/
def execLdln (dir : Bool) (s : State) : Host.Outcome State Fault Refusal :=
  if lineOk dir s then .next (s.withLine (loadLine dir s)).complete
  else raise .bufferSizeError (.ldln dir) s

/-- `S[1..6]` stored at `addr[1..6]` (R200). -/
def storeLine (dir : Bool) (s : State) : State :=
  [1, 2, 3, 4, 5, 6].foldl
    (fun t (k : Fin 8) => t.memWrite (lineAddr dir s.regs k.val) s.line[k]) s

/-- STLN (R200). -/
def execStln (dir : Bool) (s : State) : Host.Outcome State Fault Refusal :=
  if lineOk dir s then .next (storeLine dir s).complete
  else raise .bufferSizeError (.stln dir) s

end Sys2Proof.Machine
end

