-- ==== Sys2Proof/Machine/Dequant.lean ====
section
/-! DEFINITION. The dequantization scaler commands (42_dequant.md R153 to R157). -/

namespace Sys2Proof.Machine

/-- `(QPY + delta + 52) mod 52` (R153). -/
def qpWrap (qp : BitVec 6) (delta : BitVec 8) : BitVec 6 := BitVec.ofInt 6 (((qp.toNat : Int) + delta.toInt + 52) % 52)

/-- QPADD (R153). -/
def execQpadd (delta : BitVec 8) (s : State) : Host.Outcome State Fault Refusal :=
  if delta.toInt < -26 ∨ delta.toInt > 25 then raise .parseError (.qpadd delta) s
  else .next (s.withRegs { s.regs with qpy := qpWrap s.regs.qpy delta }).complete

/-- `CHROMA_QP_TAB[ Clip3(0, 51, q + off) ]` (R154). -/
def chromaQp (c : Config) (q : BitVec 6) (off : Int) : BitVec 6 :=
  BitVec.ofNat 6 c.chromaQpTab[clipIndex ((q.toNat : Int) + off)].val

/-- CQP (R154). -/
def execCqp (src dst : BitVec 2) (plane : Bool) (s : State) : Host.Outcome State Fault Refusal :=
  match (cqpSource src s.regs).bind fun q => cqpStore dst (chromaQp s.cfg q (chromaOffset plane s.regs)) s.regs with
  | some g => .next (s.withRegs g).complete
  | none => raise .parseError (.cqp src dst plane) s

/-- `LEVEL_SCALE[qp % 6][i]` (R151). -/
def levelScale (c : Config) (qp : Nat) (i : Fin 16) : Coef :=
  BitVec.ofNat 32 (c.levelScale[qp % 6]'(Nat.mod_lt _ (by decide)))[i].val

/-- The scaled block of DQAC: `C[i]` times the factor, shifted left by `qp / 6` (R155). -/
def scaleAc (c : Config) (qp : Nat) (skipdc : Bool) (b : Block) : Block :=
  Vector.ofFn fun i =>
    if skipdc = true ∧ i = 0 then b[i] else (b[i] * levelScale c qp i) <<< (qp / 6)

/-- DQAC (R155). -/
def execDqac (skipdc qsel : Bool) (s : State) : Host.Outcome State Fault Refusal :=
  .next (s.withCoef (scaleAc s.cfg (acQp qsel s.regs) skipdc s.coef)).complete

/-- One luma DC value scaled (R156). -/
def scaleLumaDc (c : Config) (qp : Nat) (v : Coef) : Coef :=
  let p := v * levelScale c qp 0
  let s := qp / 6
  if qp ≥ 12 then p <<< (s - 2) else (p + (1#32 <<< (1 - s))).sshiftRight (2 - s)

/-- All sixteen entries scaled (R156). -/
def scaleLumaDcBlock (c : Config) (qp : Nat) (b : Block) : Block := Vector.ofFn fun i => scaleLumaDc c qp b[i]

/-- DQDCL (R156). -/
def execDqdcl (s : State) : Host.Outcome State Fault Refusal :=
  .next (s.withCoef (scaleLumaDcBlock s.cfg s.regs.qpy.toNat s.coef)).complete

/-- One chroma DC value scaled (R157). -/
def scaleChromaDc (c : Config) (qp : Nat) (v : Coef) : Coef :=
  ((v * levelScale c qp 0) <<< (qp / 6)).sshiftRight 1

/-- Entries 0..3 scaled, the others kept (R157). -/
def scaleChromaDcBlock (c : Config) (qp : Nat) (b : Block) : Block :=
  Vector.ofFn fun i => if i.val < 4 then scaleChromaDc c qp b[i] else b[i]

/-- DQDCC (R157). -/
def execDqdcc (s : State) : Host.Outcome State Fault Refusal :=
  .next (s.withCoef (scaleChromaDcBlock s.cfg s.regs.qpc.toNat s.coef)).complete

end Sys2Proof.Machine
end

