-- ==== Sys2Proof/Machine/Interp.lean ====
section
/-! DEFINITION. The motion-compensation commands (43_interp.md R171 to R179). The filters are functions of a fetch
`r x y`, the `Ref(x, y)` of R171. -/

namespace Sys2Proof.Machine

/-- The six-tap sum over `g 0 .. g 5` (R172). -/
def taps6 (t : Vector Int 6) (g : Int → Int) : Int :=
  t[0] * g 0 + t[1] * g 1 + t[2] * g 2 + t[3] * g 3 + t[4] * g 4 + t[5] * g 5

/-- `b1`, the horizontal sum (R172). -/
def lumaB1 (t : Vector Int 6) (r : Int → Int → Int) (xi yi : Int) : Int := taps6 t fun k => r (xi - 2 + k) yi

/-- `h1`, the vertical sum (R172). -/
def lumaH1 (t : Vector Int 6) (r : Int → Int → Int) (xi yi : Int) : Int := taps6 t fun k => r xi (yi - 2 + k)

/-- `j1`, the sum of both (R172). -/
def lumaJ1 (t : Vector Int 6) (r : Int → Int → Int) (xi yi : Int) : Int := taps6 t fun k => lumaH1 t r (xi - 2 + k) yi

/-- `b`, half-way to the right neighbour (R173). -/
def lumaB (t : Vector Int 6) (r : Int → Int → Int) (xi yi : Int) : Int := clip1 (asr (lumaB1 t r xi yi + 16) 5)

/-- `h`, half-way to the lower neighbour (R173). -/
def lumaH (t : Vector Int 6) (r : Int → Int → Int) (xi yi : Int) : Int := clip1 (asr (lumaH1 t r xi yi + 16) 5)

/-- `j`, the centre of the four (R173). -/
def lumaJ (t : Vector Int 6) (r : Int → Int → Int) (xi yi : Int) : Int := clip1 (asr (lumaJ1 t r xi yi + 512) 10)

/-- `avg(u, v)` (R174). -/
def avg (u v : Int) : Int := asr (u + v + 1) 1

/-- The luma sample at fraction `(xFrac, yFrac)` of `(xi, yi)`: the table of R174, its rows by `yFrac`. -/
def lumaSample (t : Vector Int 6) (r : Int → Int → Int) (xFrac yFrac : Fin 4) (xi yi : Int) : Int :=
  let G := r xi yi
  let H := r (xi + 1) yi
  let M := r xi (yi + 1)
  let b := lumaB t r xi yi
  let h := lumaH t r xi yi
  let j := lumaJ t r xi yi
  let s := lumaB t r xi (yi + 1)
  let m := lumaH t r (xi + 1) yi
  match yFrac, xFrac with
  | 0, 0 => G
  | 0, 1 => avg G b
  | 0, 2 => b
  | 0, 3 => avg H b
  | 1, 0 => avg G h
  | 1, 1 => avg b h
  | 1, 2 => avg b j
  | 1, 3 => avg b m
  | 2, 0 => h
  | 2, 1 => avg h j
  | 2, 2 => j
  | 2, 3 => avg j m
  | 3, 0 => avg M h
  | 3, 1 => avg h s
  | 3, 2 => avg j s
  | 3, 3 => avg m s

/-- The low two bits of a coordinate, its fraction in quarter samples (R175). -/
def quarterFrac (v : Int) : Fin 4 := Fin.ofNat 4 (v % 4).toNat

/-- The luma prediction of the sample at column `x`, row `y` of the block (R175). -/
def lumaPredict (t : Vector Int 6) (r : Int → Int → Int) (mcX mcY : Int) (x y : Nat) : Int :=
  let xq := mcX + 4 * x
  let yq := mcY + 4 * y
  lumaSample t r (quarterFrac xq) (quarterFrac yq) (asr xq 2) (asr yq 2)

/-- The chroma sample at fraction `(xF, yF)` of `(xi, yi)`, in eighths (R176). -/
def chromaSample (r : Int → Int → Int) (xF yF : Int) (xi yi : Int) : Int :=
  let A := r xi yi
  let B := r (xi + 1) yi
  let C := r xi (yi + 1)
  let D := r (xi + 1) (yi + 1)
  asr ((8 - xF) * (8 - yF) * A + xF * (8 - yF) * B + (8 - xF) * yF * C + xF * yF * D + 32) 6

/-- The chroma prediction of the sample at column `x`, row `y` of the block (R177). -/
def chromaPredict (r : Int → Int → Int) (mcX mcY : Int) (x y : Nat) : Int :=
  let xe := mcX + 8 * x
  let ye := mcY + 8 * y
  chromaSample r (xe % 8) (ye % 8) (asr xe 3) (asr ye 3)

/-- `PRED` with the rectangle `x < w`, `y < h` holding the predictions `f x y`, every other entry kept (10_state.md R25,
70_reset_and_hazards.md R263). -/
def writeRect (w h : Nat) (f : Nat → Nat → Int) (p : Pred) : Pred :=
  Vector.ofFn fun y => Vector.ofFn fun x => if x.val < w ∧ y.val < h then toSample (f x.val y.val) else p[y][x]

/-- The fault of a motion-compensation command, in the order of 30_encoding.md R105; `none` where it executes. -/
def mcFault (shapes : List (Nat × Nat)) (unit : Nat) (hc wc : BitVec 2) (s : State) : FaultCause :=
  if wc = 3 ∨ hc = 3 then .parseError
  else if (sideLength unit wc, sideLength unit hc) ∉ shapes then .unsupportedFeatureError
  else if s.regs.refValid = 0 then .referenceError
  else if planeOk (refPlane s.regs) s.cfg.smSize = false then .bufferSizeError
  else .none

/-- MCL (R175). -/
def execMcl (hc wc : BitVec 2) (s : State) : Host.Outcome State Fault Refusal :=
  match mcFault lumaShapes 4 hc wc s with
  | .none =>
    .next (s.withPred (writeRect (sideLength 4 wc) (sideLength 4 hc)
      (lumaPredict s.cfg.lumaTaps (refSample (refPlane s.regs) s.sm) s.regs.mcX.toInt s.regs.mcY.toInt)
      s.pred)).complete
  | cause => raise cause (.mcl hc wc) s

/-- MCC (R177). -/
def execMcc (hc wc : BitVec 2) (s : State) : Host.Outcome State Fault Refusal :=
  match mcFault chromaShapes 2 hc wc s with
  | .none =>
    .next (s.withPred (writeRect (sideLength 2 wc) (sideLength 2 hc)
      (chromaPredict (refSample (refPlane s.regs) s.sm) s.regs.mcX.toInt s.regs.mcY.toInt)
      s.pred)).complete
  | cause => raise cause (.mcc hc wc) s

/-- MCBI, reserved: always UnsupportedFeatureError (R178). -/
def execMcbi (ignored : BitVec 24) (s : State) : Host.Outcome State Fault Refusal :=
  raise .unsupportedFeatureError (.mcbi ignored) s

end Sys2Proof.Machine
end

