-- ==== Sys2Proof/Machine/Transform.lean ====
section
/-! DEFINITION. The transform commands (41_transform.md R131 to R137). -/

namespace Sys2Proof.Machine

/-- The inverse zig-zag: `T[zz[k]] = b[k]` for `k` in 0..15 (R131; log 16). -/
def inverseZigzag (zz : Vector (Fin 16) 16) (b : Block) : Block :=
  (List.finRange 16).foldl (fun t k => t.set zz[k].val b[k] zz[k].isLt) b

/-- ZIGZAG (R131). -/
def execZigzag (s : State) : Host.Outcome State Fault Refusal :=
  .next (s.withCoef (inverseZigzag s.cfg.zigzag4x4 s.coef)).complete

/-- One pass over four values, the even sums and odd sums written as R132 writes them. -/
def butterfly (d0 d1 d2 d3 : Coef) (k : Fin 4) : Coef :=
  let e0 := d0 + d2
  let e1 := d0 - d2
  let e2 := d1.sshiftRight 1 - d3
  let e3 := d1 + d3.sshiftRight 1
  match k with
  | 0 => e0 + e3
  | 1 => e1 + e2
  | 2 => e1 - e2
  | 3 => e0 - e3

/-- The row pass of R132. -/
def idctRows (b : Block) : Block :=
  Block.make fun i j => butterfly (Block.at b i 0) (Block.at b i 1) (Block.at b i 2) (Block.at b i 3) j

/-- The column pass of R132. -/
def idctCols (b : Block) : Block :=
  Block.make fun i j => butterfly (Block.at b 0 j) (Block.at b 1 j) (Block.at b 2 j) (Block.at b 3 j) i

/-- The final rounding of R132. -/
def idctRound (b : Block) : Block := Vector.ofFn fun n => (b[n] + 32).sshiftRight 6

/-- The inverse 4x4 integer transform: rows, then columns, then rounding (R132). -/
def idct4 (b : Block) : Block := idctRound (idctCols (idctRows b))

/-- IDCT4 (R132). -/
def execIdct4 (s : State) : Host.Outcome State Fault Refusal := .next (s.withCoef (idct4 s.coef)).complete

/-- The symmetric matrix `A` of R133. -/
def hadamard : Vector (Vector Int 4) 4 :=
  #v[#v[1, 1, 1, 1], #v[1, 1, -1, -1], #v[1, -1, -1, 1], #v[1, -1, 1, -1]]

/-- `f = A * c * A`, wrapped (R133). -/
def inverseHadamard4 (b : Block) : Block :=
  Block.make fun i j => wrap32 (sum4 fun k => sum4 fun l => hadamard[i][k] * (Block.at b k l).toInt * hadamard[l][j])

/-- IHAD4 (R133). -/
def execIhad4 (s : State) : Host.Outcome State Fault Refusal := .next (s.withCoef (inverseHadamard4 s.coef)).complete

/-- The inverse 2x2 Hadamard transform of entries 0..3; the others are kept (R134). -/
def inverseHadamard2 (b : Block) : Block :=
  let c0 := b[0]
  let c1 := b[1]
  let c2 := b[2]
  let c3 := b[3]
  (((b.set 0 (c0 + c1 + c2 + c3)).set 1 (c0 - c1 + c2 - c3)).set 2 (c0 + c1 - c2 - c3)).set 3 (c0 - c1 - c2 + c3)

/-- IHAD2 (R134). -/
def execIhad2 (s : State) : Host.Outcome State Fault Refusal := .next (s.withCoef (inverseHadamard2 s.coef)).complete

/-- MVDC (R135). -/
def execMvdc (s : State) : Host.Outcome State Fault Refusal := .next (s.withDc s.coef).complete

/-- MRGDC (R136). -/
def execMrgdc (k : BitVec 4) (s : State) : Host.Outcome State Fault Refusal :=
  .next (s.withCoef (s.coef.set 0 (s.dc[k.toNat]'k.isLt))).complete

/-- IDCT8, reserved: always UnsupportedFeatureError (R137). -/
def execIdct8 (ignored : BitVec 24) (s : State) : Host.Outcome State Fault Refusal :=
  raise .unsupportedFeatureError (.idct8 ignored) s

end Sys2Proof.Machine
end

