-- ==== Sys2Proof/Machine/Dispatch.lean ====
section
/-! DEFINITION. The one dispatcher: a command to its meaning (30_encoding.md R96, R104). -/

namespace Sys2Proof.Machine

/-- The meaning of every command (30_encoding.md R104). -/
def exec (i : Instr) (s : State) : Host.Outcome State Fault Refusal :=
  match i with
  | .nop => Sys2Proof.Machine.execNop s
  | .endCmd => Sys2Proof.Machine.execEnd s
  | .wrl idx imm => Sys2Proof.Machine.execWrl idx imm s
  | .wrh idx imm => Sys2Proof.Machine.execWrh idx imm s
  | .setc n imm => Sys2Proof.Machine.execSetc n imm s
  | .clrc => Sys2Proof.Machine.execClrc s
  | .sets n imm => Sys2Proof.Machine.execSets n imm s
  | .zigzag => Sys2Proof.Machine.execZigzag s
  | .idct4 => Sys2Proof.Machine.execIdct4 s
  | .ihad4 => Sys2Proof.Machine.execIhad4 s
  | .ihad2 => Sys2Proof.Machine.execIhad2 s
  | .mvdc => Sys2Proof.Machine.execMvdc s
  | .mrgdc k => Sys2Proof.Machine.execMrgdc k s
  | .idct8 ignored => Sys2Proof.Machine.execIdct8 ignored s
  | .qpadd delta => Sys2Proof.Machine.execQpadd delta s
  | .cqp src dst plane => Sys2Proof.Machine.execCqp src dst plane s
  | .dqac skipdc qsel => Sys2Proof.Machine.execDqac skipdc qsel s
  | .dqdcl => Sys2Proof.Machine.execDqdcl s
  | .dqdcc => Sys2Proof.Machine.execDqdcc s
  | .mcl hc wc => Sys2Proof.Machine.execMcl hc wc s
  | .mcc hc wc => Sys2Proof.Machine.execMcc hc wc s
  | .mcbi ignored => Sys2Proof.Machine.execMcbi ignored s
  | .bs mbedge => Sys2Proof.Machine.execBs mbedge s
  | .dbl chroma => Sys2Proof.Machine.execDbl chroma s
  | .ldln dir => Sys2Proof.Machine.execLdln dir s
  | .stln dir => Sys2Proof.Machine.execStln dir s

end Sys2Proof.Machine
end

