-- ==== Sys2Proof/Machine/Step.lean ====
section
/-! DEFINITION. The sequencer's step (30_encoding.md R104). -/

namespace Sys2Proof.Machine

/-- One step of the sequencer: enabled when `STATE` is RUN and the queue is not empty, it takes the head word, decodes it
and executes the command or enters the fault state; not enabled, the block does nothing (30_encoding.md R104; log 14). -/
def step (s : State) : Host.Outcome State Fault Refusal :=
  match fetch s with
  | none => .next s
  | some (w, s') =>
    match decode w with
    | .ok i => exec i s'
    | .error e => raiseWord e w s'

/-- `s` with the instruction whose low `nbits` bits are those of `w` where `step` takes its next word: it stands for the
host's push of that word (log 12). -/
def State.withFetchWord (s : State) (nbits w : Nat) : State := s.putNextWord (tableWord nbits w)

end Sys2Proof.Machine
end

