-- ==== Sys2Proof/Machine/Assembler.lean ====
section
/-! DEFINITION. The assembler's operand rules and pseudo-commands (30_encoding.md R100, R101). A line is given as a term,
its mnemonic a constructor and its numbers integers; the spelling of a line as text has no architectural effect (log 18).
-/

namespace Sys2Proof.Machine

/-- A control register operand, by name or by number (30_encoding.md R100). -/
inductive AsmReg where
  | name (r : CReg)
  | num (n : Nat)
  deriving DecidableEq, Repr

/-- One line: the 26 mnemonics of 30_encoding.md R100 in their operand order, and the pseudo-commands of R101. -/
inductive AsmLine where
  | nop | endCmd | clrc | zigzag | idct4 | ihad4 | ihad2 | mvdc | idct8 | dqdcl | dqdcc | mcbi
  | wrl (cr : AsmReg) (imm : Int)
  | wrh (cr : AsmReg) (imm : Int)
  | setc (i : Nat) (imm : Int)
  | sets (i : Nat) (imm : Int)
  | mrgdc (k : Nat)
  | qpadd (delta : Int)
  | cqp (dst src : Nat) (plane : Bool)
  | dqac (qsel skipdc : Bool)
  | mcl (w h : Nat)
  | mcc (w h : Nat)
  | bs (mbedge : Bool)
  | dbl (chroma : Bool)
  | ldln (dir : Bool)
  | stln (dir : Bool)
  | wr32 (cr : AsmReg) (v : Int)
  | wrmv (cr : AsmReg) (mvx mvy : Int)
  | ldblk (vs : List Int)
  | ldline (vs : List Int)
  | fltln (dir chroma : Bool)
  deriving DecidableEq, Repr

/-- A number in a field of `n` bits, a negative one in two's complement (30_encoding.md R100); `none` where it does not
fit. -/
def asmField (n : Nat) (v : Int) : Option (BitVec n) :=
  if -(2 ^ (n - 1) : Nat) ≤ v ∧ v < (2 ^ n : Nat) then some (BitVec.ofInt n v) else none

/-- The `idx` field of a register operand. -/
def asmReg : AsmReg → Option (BitVec 8)
  | .name r => some (BitVec.ofNat 8 (cregNum r))
  | .num n => asmField 8 n

/-- The size code of a side length: 0, 1, 2 for `unit`, `2*unit`, `4*unit` (30_encoding.md R93, R100). -/
def asmSize (unit len : Nat) : Option (BitVec 2) :=
  if len = unit then some 0 else if len = 2 * unit then some 1 else if len = 4 * unit then some 2 else none

/-- The registers WR32 takes: those of 32 bits (30_encoding.md R101). -/
def isWideReg (idx : BitVec 8) : Bool := [0x0C, 0x0E, 0x0F, 0x10, 0x11, 0x16].contains idx.toNat

/-- One coefficient write of LDBLK or SETC. -/
def asmSetc (i : Nat) (v : Int) : Option Instr := do
  let i ← asmField 4 i
  let v ← asmField 16 v
  pure (.setc i v)

/-- One sample write of LDLINE or SETS. -/
def asmSets (i : Nat) (v : Int) : Option Instr := do
  let i ← asmField 3 i
  let v ← asmField 8 v
  pure (.sets i v)

/-- The commands a line stands for; `none` where an operand does not fit (30_encoding.md R100, R101). -/
def assemble : AsmLine → Option (List Instr)
  | .nop => some [.nop]
  | .endCmd => some [.endCmd]
  | .clrc => some [.clrc]
  | .zigzag => some [.zigzag]
  | .idct4 => some [.idct4]
  | .ihad4 => some [.ihad4]
  | .ihad2 => some [.ihad2]
  | .mvdc => some [.mvdc]
  | .idct8 => some [.idct8 0]
  | .dqdcl => some [.dqdcl]
  | .dqdcc => some [.dqdcc]
  | .mcbi => some [.mcbi 0]
  | .wrl cr imm => do
    let idx ← asmReg cr
    let v ← asmField 16 imm
    pure [.wrl idx v]
  | .wrh cr imm => do
    let idx ← asmReg cr
    let v ← asmField 16 imm
    pure [.wrh idx v]
  | .setc i imm => do
    let c ← asmSetc i imm
    pure [c]
  | .sets i imm => do
    let c ← asmSets i imm
    pure [c]
  | .mrgdc k => do
    let k ← asmField 4 k
    pure [.mrgdc k]
  | .qpadd delta => do
    let d ← asmField 8 delta
    pure [.qpadd d]
  | .cqp dst src plane => do
    let d ← asmField 2 dst
    let s ← asmField 2 src
    pure [.cqp s d plane]
  | .dqac qsel skipdc => some [.dqac skipdc qsel]
  | .mcl w h => do
    let wc ← asmSize 4 w
    let hc ← asmSize 4 h
    pure [.mcl hc wc]
  | .mcc w h => do
    let wc ← asmSize 2 w
    let hc ← asmSize 2 h
    pure [.mcc hc wc]
  | .bs mbedge => some [.bs mbedge]
  | .dbl chroma => some [.dbl chroma]
  | .ldln dir => some [.ldln dir]
  | .stln dir => some [.stln dir]
  | .wr32 cr v => do
    let idx ← asmReg cr
    let v ← asmField 32 v
    if isWideReg idx then pure [.wrl idx (v.extractLsb' 0 16), .wrh idx (v.extractLsb' 16 16)] else none
  | .wrmv cr mvx mvy => do
    let idx ← asmReg cr
    let x ← asmField 16 mvx
    let y ← asmField 16 mvy
    if idx = 0x0C ∨ idx = 0x0E then pure [.wrl idx x, .wrh idx y] else none
  | .ldblk vs => if vs.length = 16 then (vs.zipIdx.mapM fun p => asmSetc p.2 p.1) else none
  | .ldline vs => if vs.length = 8 then (vs.zipIdx.mapM fun p => asmSets p.2 p.1) else none
  | .fltln dir chroma => some [.ldln dir, .dbl chroma, .stln dir]

/-- The words of a line, as the host pushes them. -/
def assembleWords (l : AsmLine) : Option (List Word) := (assemble l).map fun is => is.map encode

end Sys2Proof.Machine
end

