-- ==== Sys2Proof/Machine/Flags.lean ====
section
/-! DEFINITION. The status bits. The block has no arithmetic flags, condition codes or predicates (10_state.md R43); what
it has is `STATE`, the fault capture registers and the line `irq`. -/

namespace Sys2Proof.Machine

/-- The 2-bit code of `STATE` (10_state.md R41). -/
def Status.code : Status → BitVec 2
  | .run => 0
  | .done => 1
  | .fault => 2

/-- The 3-bit code of a fault cause (60_exceptions.md R220). -/
def FaultCause.code : FaultCause → BitVec 3
  | .none => 0
  | .parseError => 1
  | .referenceError => 2
  | .unsupportedFeatureError => 3
  | .bufferSizeError => 4

/-- The interrupt request line: 1 exactly when `STATE` is not RUN (10_state.md R45, 60_exceptions.md R226). -/
def State.irq (s : State) : Bool := s.status != .run

/-- The `STATUS` word: `STATE` in [1:0], `irq` in bit 2, zeros above (10_state.md R46). -/
def State.statusWord (s : State) : Word := flag 2 s.irq ||| field 0 s.status.code

end Sys2Proof.Machine
end

