-- ==== Sys2Proof/Machine/HostPort.lean ====
section
/-! DEFINITION. The host port and the host's other actions (10_state.md R46 to R48, 20_memory.md R70, R81), and the
interleaving of the host, the sequencer and the platform's reset, one action at a time (70_reset_and_hazards.md R250,
R264; log 13). -/

namespace Sys2Proof.Machine

/-! ### Reads of the host port -/

/-- The host-port words that are exact only while the block is quiescent: control registers, `C`, `DC`, `S`, `PRED`
(10_state.md R46, R47). -/
def isDataWord (idx : Nat) : Bool :=
  (decide (0x040 ≤ idx) && decide (idx < 0x040 + 26)) || (decide (0x080 ≤ idx) && decide (idx < 0x0A8)) ||
    (decide (0x100 ≤ idx) && decide (idx < 0x200))

/-- The content of a host-port word (10_state.md R46): write-only words and indices not listed read 0. -/
def portContent (s : State) (idx : Nat) : Word :=
  if idx = 0x001 then s.statusWord
  else if idx = 0x002 then s.faultCause.code.setWidth 32
  else if idx = 0x003 then s.faultCmd
  else if idx = 0x004 then s.faultCix
  else if idx = 0x005 then s.cix
  else if 0x040 ≤ idx ∧ idx < 0x040 + 26 then
    match cregOfNum (idx - 0x040) with
    | some r => s.regs.read r
    | none => 0
  else if 0x080 ≤ idx ∧ idx < 0x090 then s.coef[Fin.ofNat 16 (idx - 0x080)]
  else if 0x090 ≤ idx ∧ idx < 0x0A0 then s.dc[Fin.ofNat 16 (idx - 0x090)]
  else if 0x0A0 ≤ idx ∧ idx < 0x0A8 then s.line[Fin.ofNat 8 (idx - 0x0A0)].setWidth 32
  else if 0x100 ≤ idx ∧ idx < 0x200 then
    s.pred[Fin.ofNat 16 ((idx - 0x100) / 16)][Fin.ofNat 16 ((idx - 0x100) % 16)].setWidth 32
  else 0

/-- A host read of a port word: its value and the state after it. While the block is not quiescent a data word reads as
a free value and nothing but the model's draw counter changes (10_state.md R47, U4; log 8). -/
def portRead (idx : Nat) (s : State) : Word × State :=
  if isDataWord idx = true ∧ s.quiescent = false then
    (Config.freePortWord s.freeCtr, { s with freeCtr := s.freeCtr + 1 })
  else (portContent s idx, s)

/-! ### Writes of the host port -/

/-- A write of `HCTRL`: bit 0 `RST` wins over bit 1 `ACK`; other bits are ignored (10_state.md R46, U14). -/
def writeHctrl (v : Word) (s : State) : State :=
  if v.getLsbD 0 then s.softReset else if v.getLsbD 1 then s.ack else s

/-- A push of a command word: it completes at once when the queue has room and no earlier push waits; else its word waits
behind the earlier ones, none dropped or reordered (10_state.md R44, U13; log 4). -/
def push (w : Word) (s : State) : State :=
  if s.waiting = [] ∧ s.queue.length < s.cfg.cmdqDepth then { s with queue := s.queue ++ [w] }
  else { s with waiting := s.waiting ++ [w] }

/-- The oldest waiting push completes if the queue has room for its word; else it goes on waiting (R44, U13; log 4). -/
def completePush (s : State) : State :=
  match s.waiting with
  | w :: rest =>
    if s.queue.length < s.cfg.cmdqDepth then { s with queue := s.queue ++ [w], waiting := rest } else s
  | [] => s

/-- A host write of a port word: `HCTRL`, `CMD`; every other write is ignored (10_state.md R46). -/
def portWrite (idx : Nat) (v : Word) (s : State) : Host.Outcome State Fault Refusal :=
  if idx = 0x000 then .next (writeHctrl v s)
  else if idx = 0x006 then .next (push v s)
  else .next s

/-! ### The host's accesses to the sample memory -/

/-- What stops a host access to byte `a` of `SM`: the block is not quiescent (20_memory.md R81, U5; log 9), or the byte
does not exist (R70; log 10). -/
def guardSm (a : Nat) (s : State) (next : State) : Host.Outcome State Fault Refusal :=
  if s.quiescent = false then .refused .hostRacesBlock
  else if a < s.cfg.smSize then .next next
  else .fault .smAddressOutside

/-- A host write of a byte of `SM` (20_memory.md R70, R77). -/
def hostSmWrite (a : Nat) (v : Byte) (s : State) : Host.Outcome State Fault Refusal := guardSm a s (s.memWrite a v)

/-- A host read of a byte of `SM`; its value is `s.memRead a` (20_memory.md R77: a read has no side effect). -/
def hostSmRead (a : Nat) (s : State) : Host.Outcome State Fault Refusal := guardSm a s s

/-! ### One action at a time -/

/-- What the host can do (10_state.md R48, 20_memory.md R70): its accesses, and the completion of a push that waits. -/
inductive HostAction where
  | portWrite (idx : Nat) (v : Word)
  | portRead (idx : Nat)
  | smWrite (a : Nat) (v : Byte)
  | smRead (a : Nat)
  | pushCompletes
  deriving DecidableEq, Repr

/-- A host action. -/
def hostAct (a : HostAction) (s : State) : Host.Outcome State Fault Refusal :=
  match a with
  | .portWrite idx v => portWrite idx v s
  | .portRead idx => .next (portRead idx s).2
  | .smWrite addr v => hostSmWrite addr v s
  | .smRead addr => hostSmRead addr s
  | .pushCompletes => .next (completePush s)

/-- Who acts next: the sequencer, the host, or the platform with a hard reset. -/
inductive Event where
  | sequencer
  | host (a : HostAction)
  | hardReset
  deriving DecidableEq, Repr

/-- One action of the system. A command is one atomic action (00_scope.md R14). -/
def sysStep (e : Event) (s : State) : Host.Outcome State Fault Refusal :=
  match e with
  | .sequencer => step s
  | .host a => hostAct a s
  | .hardReset => .next s.hardReset

/-- Events in order, to the first stop. -/
def sysRun : List Event → State → Host.Outcome State Fault Refusal
  | [], s => .next s
  | e :: rest, s =>
    match sysStep e s with
    | .next s' => sysRun rest s'
    | .fault r => .fault r
    | .refused r => .refused r

end Sys2Proof.Machine
end

