-- ==== Sys2Proof/WellFormed.lean ====
section
/-! DEFINITION. Which commands have every field inside the values their command allows: step 3 of 30_encoding.md R105,
written from the list of ParseError causes in 60_exceptions.md R221. The meanings make the same checks by the
pseudocode of their own rules, so that the two texts check each other. -/

namespace Sys2Proof

/-- The values WRL accepts for control register number `idx` (10_state.md R26, column "Legal values"). -/
def wrlAllowed (idx : BitVec 8) (imm : BitVec 16) : Bool :=
  match idx.toNat with
  | 0x00 | 0x03 | 0x06 | 0x07 => decide (imm.toNat ≤ 51)
  | 0x01 | 0x02 => decide (-12 ≤ imm.toInt) && decide (imm.toInt ≤ 12)
  | 0x04 | 0x05 => decide (-6 ≤ imm.toInt) && decide (imm.toInt ≤ 6)
  | 0x08 => decide (imm.toNat ≤ 4)
  | 0x0B | 0x0D => !imm.getLsbD 7 && decide ((imm.extractLsb' 2 5).toNat ≤ 16)
  | 0x15 => decide (imm.toNat ≤ 1)
  | n => decide (n ≤ 0x19)

/-- The register numbers WRH accepts: those of the 32-bit registers (60_exceptions.md R221). -/
def wrhAllowed (idx : BitVec 8) : Bool :=
  [0x0C, 0x0E, 0x0F, 0x10, 0x11, 0x16].contains idx.toNat

/-- Every field of the command is inside the values the command allows (30_encoding.md R105 step 3, 60_exceptions.md
R221). The commands not listed have no illegal field value. -/
def Instr.wellFormed : Instr → Bool
  | .wrl idx imm => wrlAllowed idx imm
  | .wrh idx _ => wrhAllowed idx
  | .qpadd delta => decide (-26 ≤ delta.toInt) && decide (delta.toInt ≤ 25)
  | .cqp src dst _ => src != 3 && dst != 3
  | .mcl hc wc => wc != 3 && hc != 3
  | .mcc hc wc => wc != 3 && hc != 3
  | .nop | .endCmd | .setc _ _ | .clrc | .sets _ _ | .zigzag | .idct4 | .ihad4 | .ihad2 | .mvdc | .mrgdc _
  | .idct8 _ | .dqac _ _ | .dqdcl | .dqdcc | .mcbi _ | .bs _ | .dbl _ | .ldln _ | .stln _ => true

end Sys2Proof
end

