-- ==== Sys2Proof/Safety.lean ====
section
/-! DEFINITION. What a state the block can be in looks like: the invariant the statements use, in the spec's terms. -/

namespace Sys2Proof.Machine

/-- Every control register holds a legal value (10_state.md R26, R39). -/
abbrev CtrlRegs.Legal (g : CtrlRegs) : Prop :=
  g.qpy.toNat ≤ 51 ∧ g.qpc.toNat ≤ 51 ∧ g.dbQpp.toNat ≤ 51 ∧ g.dbQpq.toNat ≤ 51 ∧
    (-12 ≤ g.cqpoCb.toInt ∧ g.cqpoCb.toInt ≤ 12) ∧ (-12 ≤ g.cqpoCr.toInt ∧ g.cqpoCr.toInt ≤ 12) ∧
    (-6 ≤ g.alphaOff.toInt ∧ g.alphaOff.toInt ≤ 6) ∧ (-6 ≤ g.betaOff.toInt ∧ g.betaOff.toInt ≤ 6) ∧
    g.dbBs.toNat ≤ 4 ∧
    (g.bspInfo.getLsbD 7 = false ∧ infoNz g.bspInfo ≤ 16) ∧ (g.bsqInfo.getLsbD 7 = false ∧ infoNz g.bsqInfo ≤ 16)

/-- The fault capture registers read 0 while `STATE` is not FAULT (10_state.md R42), and in FAULT they name a cause and
the position `CIX` still holds (60_exceptions.md R229, R231). -/
abbrev State.captureOk (s : State) : Prop :=
  (s.status ≠ .fault → s.faultCause = .none ∧ s.faultCmd = 0 ∧ s.faultCix = 0) ∧
    (s.status = .fault → s.faultCause ≠ .none ∧ s.faultCix = s.cix)

/-- Every byte listed in the sample memory exists (20_memory.md R70). -/
abbrev State.smInside (s : State) : Prop := ∀ p ∈ s.sm, p.1 < s.cfg.smSize

/-- The invariant of the machine, in the spec's terms. -/
structure State.Inv (s : State) : Prop where
  /-- The configuration has the stated shape (00_scope.md R6, R7). -/
  cfgWf : s.cfg.Wf
  /-- The control registers hold legal values (10_state.md R39). -/
  regsLegal : s.regs.Legal
  /-- The capture registers are as 10_state.md R42 says. -/
  capture : s.captureOk
  /-- The sample memory is in canonical form. -/
  smCanonical : Memory.wf s.sm
  /-- The sample memory lies inside `SM_SIZE` (20_memory.md R70). -/
  smBounded : s.smInside
  /-- The queue is within its capacity (10_state.md R44). -/
  queueFits : s.queue.length ≤ s.cfg.cmdqDepth

end Sys2Proof.Machine
end

