-- ==== Sys2Proof/Certificates/Slice0/Obligations.lean ====
section
/-! DEFINITION. The statements for the provers. Each docstring names the rule of spec/ it formalises. The functions under
`Sys2Proof.Claims` say the spec's formulas anew, on mathematical integers, so that a statement does not repeat the
meaning it is about. -/

namespace Sys2Proof.Claims

open Sys2Proof.Machine

/-- `wrap32` as an integer (00_scope.md R10). -/
def wrapInt (v : Int) : Int := Int.bmod v (2 ^ 32)

/-- One pass of the inverse transform, `wrap` applied after every `+` and `-` (41_transform.md R132). -/
def idctPass (wrap : Int → Int) (d0 d1 d2 d3 : Int) (k : Fin 4) : Int :=
  let e0 := wrap (d0 + d2)
  let e1 := wrap (d0 - d2)
  let e2 := wrap (d1 / 2 - d3)
  let e3 := wrap (d1 + d3 / 2)
  match k with
  | 0 => wrap (e0 + e3)
  | 1 => wrap (e1 + e2)
  | 2 => wrap (e1 - e2)
  | 3 => wrap (e0 - e3)

/-- The inverse transform of `c`, rows first, then columns, then rounding (41_transform.md R132). -/
def idct (wrap : Int → Int) (c : Fin 4 → Fin 4 → Int) (i j : Fin 4) : Int :=
  let f := fun r k => idctPass wrap (c r 0) (c r 1) (c r 2) (c r 3) k
  wrap (idctPass wrap (f 0 j) (f 1 j) (f 2 j) (f 3 j) i + 32) / 64

/-- The matrix `A` of 41_transform.md R133, over the 32-bit integers. -/
def hadamardA : Matrix (Fin 4) (Fin 4) Coef := !![1, 1, 1, 1; 1, 1, -1, -1; 1, -1, -1, 1; 1, -1, 1, -1]

/-- A block as a matrix (00_scope.md R9). -/
def asMatrix (b : Block) : Matrix (Fin 4) (Fin 4) Coef := Matrix.of fun i j => Block.at b i j

/-- `LEVEL_SCALE[qp % 6][i]` (42_dequant.md R151). -/
def scaleFactor (c : Config) (qp : Nat) (i : Fin 16) : Int := ((c.levelScale[Fin.ofNat 6 qp])[i].val : Int)

/-- `PlaneOK` (20_memory.md R72). -/
abbrev PlaneOK (base stride w h smSize : Nat) : Prop :=
  1 ≤ w ∧ 1 ≤ h ∧ w ≤ stride ∧ base + (h - 1) * stride + w ≤ smSize

/-- `PlaneOK(REF_BASE, REF_STRIDE, REF_W, REF_H)`. -/
abbrev RefOK (s : State) : Prop :=
  PlaneOK s.regs.refBase.toNat s.regs.refStride.toNat s.regs.refW.toNat s.regs.refH.toNat s.cfg.smSize

/-- `PlaneOK(CUR_BASE, CUR_STRIDE, CUR_W, CUR_H)` and the line's position inside the plane (44_deblock.md R199). -/
abbrev LineFits (dir : Bool) (s : State) : Prop :=
  PlaneOK s.regs.curBase.toNat s.regs.curStride.toNat s.regs.curW.toNat s.regs.curH.toNat s.cfg.smSize ∧
    (if dir then 4 ≤ s.regs.dbY.toNat ∧ s.regs.dbY.toNat + 4 ≤ s.regs.curH.toNat ∧ s.regs.dbX.toNat < s.regs.curW.toNat
      else 4 ≤ s.regs.dbX.toNat ∧ s.regs.dbX.toNat + 4 ≤ s.regs.curW.toNat ∧ s.regs.dbY.toNat < s.regs.curH.toNat)

/-- The size codes `(wc, hc)` of 43_interp.md R179 marked legal. -/
abbrev LegalSize (hc wc : BitVec 2) : Prop :=
  (wc, hc) ∈ ([(0, 0), (1, 0), (0, 1), (1, 1), (2, 1), (1, 2), (2, 2)] : List (BitVec 2 × BitVec 2))

/-- The fault of a command, the first that applies in the order of 30_encoding.md R105; `none` where it executes. -/
def faultOf (i : Instr) (s : State) : FaultCause :=
  match i with
  | .idct8 _ | .mcbi _ => .unsupportedFeatureError
  | .mcl hc wc | .mcc hc wc =>
    if wc = 3 ∨ hc = 3 then .parseError
    else if ¬ LegalSize hc wc then .unsupportedFeatureError
    else if s.regs.refValid = 0 then .referenceError
    else if ¬ RefOK s then .bufferSizeError
    else .none
  | .ldln dir | .stln dir => if LineFits dir s then .none else .bufferSizeError
  | i => if i.wellFormed then .none else .parseError

/-- The outcome of a word, steps 1 to 7 of 30_encoding.md R105. -/
def faultOfWord (w : Word) (s : State) : FaultCause :=
  if w >>> 24 = 0x18 ∨ w >>> 24 = 0x38 then .unsupportedFeatureError
  else match decode w with
    | .error _ => .parseError
    | .ok i => faultOf i s

/-- The fault state a command `w` enters (60_exceptions.md R229). -/
def faulted (s : State) (c : FaultCause) (w : Word) : State :=
  { s with faultCause := c, faultCmd := w, faultCix := s.cix, status := .fault }

/-- A control register that WRL reads as signed (30_encoding.md R94). -/
def isSigned (r : CReg) : Bool := r = .cqpoCb || r = .cqpoCr || r = .alphaOff || r = .betaOff

/-- The value the `src` field of CQP names (42_dequant.md R154). -/
def cqpValue (src : BitVec 2) (g : CtrlRegs) : BitVec 6 := if src = 0 then g.qpy else if src = 1 then g.dbQpp else g.dbQpq

/-- The registers after CQP writes `v` to the register its `dst` field names (42_dequant.md R154). -/
def cqpWrite (dst : BitVec 2) (v : BitVec 6) (g : CtrlRegs) : CtrlRegs :=
  if dst = 0 then { g with qpc := v } else if dst = 1 then { g with dbQpp := v } else { g with dbQpq := v }

/-- The boundary strength of 44_deblock.md R191, from the bits of the four registers. -/
def strength (mbedge : Bool) (p q : BitVec 16) (pv qv : BitVec 32) : Nat :=
  let intra := p.getLsbD 0 || q.getLsbD 0
  let dx : Int := (pv.setWidth 16).toInt - (qv.setWidth 16).toInt
  let dy : Int := ((pv >>> 16).setWidth 16).toInt - ((qv >>> 16).setWidth 16).toInt
  if intra then (if mbedge then 4 else 3)
  else if (p >>> 2) % 32 ≠ 0 ∨ (q >>> 2) % 32 ≠ 0 then 2
  else if p.getLsbD 1 ≠ q.getLsbD 1 ∨ 4 ≤ |dx| ∨ 4 ≤ |dy| ∨ p >>> 8 ≠ q >>> 8 then 1
  else 0

/-- The samples `p3 p2 p1 p0 q0 q1 q2 q3` of a line as integers (10_state.md R22). -/
def smp (l : Line) (k : Fin 8) : Int := (l[k].toNat : Int)

/-- `filterSamples` (44_deblock.md R195). -/
abbrev Filtered (s : State) : Prop :=
  s.regs.dbBs ≠ 0 ∧ |smp s.line 3 - smp s.line 4| < alphaOf s.cfg s.regs ∧
    |smp s.line 2 - smp s.line 3| < betaOf s.cfg s.regs ∧ |smp s.line 5 - smp s.line 4| < betaOf s.cfg s.regs

/-- `S[k]` after the normal filter, from the formulas of 44_deblock.md R196 with floor division. -/
def normalSample (chroma : Bool) (beta tc0 : Int) (l : Line) (k : Fin 8) : Int :=
  let p2 := smp l 1
  let p1 := smp l 2
  let p0 := smp l 3
  let q0 := smp l 4
  let q1 := smp l 5
  let q2 := smp l 6
  let ap := |p2 - p0|
  let aq := |q2 - q0|
  let tc := if chroma then tc0 + 1 else tc0 + (if ap < beta then 1 else 0) + (if aq < beta then 1 else 0)
  let delta := max (-tc) (min tc ((4 * (q0 - p0) + (p1 - q1) + 4) / 8))
  match k with
  | 2 => if chroma = false ∧ ap < beta then p1 + max (-tc0) (min tc0 ((p2 + (p0 + q0 + 1) / 2 - 2 * p1) / 2)) else p1
  | 3 => max 0 (min 255 (p0 + delta))
  | 4 => max 0 (min 255 (q0 - delta))
  | 5 => if chroma = false ∧ aq < beta then q1 + max (-tc0) (min tc0 ((q2 + (p0 + q0 + 1) / 2 - 2 * q1) / 2)) else q1
  | k => smp l k

/-- `S[k]` after the strong filter, from the formulas of 44_deblock.md R197 with floor division. -/
def strongSample (chroma : Bool) (alpha beta : Int) (l : Line) (k : Fin 8) : Int :=
  let p3 := smp l 0
  let p2 := smp l 1
  let p1 := smp l 2
  let p0 := smp l 3
  let q0 := smp l 4
  let q1 := smp l 5
  let q2 := smp l 6
  let q3 := smp l 7
  let small := |p0 - q0| < alpha / 4 + 2
  let pLong := chroma = false ∧ |p2 - p0| < beta ∧ small
  let qLong := chroma = false ∧ |q2 - q0| < beta ∧ small
  match k with
  | 1 => if pLong then (2 * p3 + 3 * p2 + p1 + p0 + q0 + 4) / 8 else p2
  | 2 => if pLong then (p2 + p1 + p0 + q0 + 2) / 4 else p1
  | 3 => if pLong then (p2 + 2 * p1 + 2 * p0 + 2 * q0 + q1 + 4) / 8 else (2 * p1 + p0 + q1 + 2) / 4
  | 4 => if qLong then (p1 + 2 * p0 + 2 * q0 + 2 * q1 + q2 + 4) / 8 else (2 * q1 + q0 + p1 + 2) / 4
  | 5 => if qLong then (p0 + q0 + q1 + q2 + 2) / 4 else q1
  | 6 => if qLong then (2 * q3 + 3 * q2 + q1 + q0 + p0 + 4) / 8 else q2
  | k => smp l k

/-- The word indices of the host port whose access is read only (10_state.md R46). -/
abbrev PortReadable (idx : Nat) : Prop :=
  (1 ≤ idx ∧ idx ≤ 5) ∨ (0x040 ≤ idx ∧ idx ≤ 0x040 + 0x19) ∨ (0x080 ≤ idx ∧ idx ≤ 0x080 + 15) ∨
    (0x090 ≤ idx ∧ idx ≤ 0x090 + 15) ∨ (0x0A0 ≤ idx ∧ idx ≤ 0x0A0 + 7) ∨ (0x100 ≤ idx ∧ idx ≤ 0x100 + 16 * 15 + 15)

/-- The two ways into reset (70_reset_and_hazards.md R250). -/
abbrev IsReset (e : Event) : Prop := e = .hardReset ∨ ∃ v : Word, e = .host (.portWrite 0x000 v) ∧ v.getLsbD 0 = true

/-- A state with the line reversed and the two sides' QPs exchanged (44_deblock.md R201 g). -/
def mirrored (s : State) : State :=
  { s with line := s.line.reverse, regs := { s.regs with dbQpp := s.regs.dbQpq, dbQpq := s.regs.dbQpp } }

/-- The words of the assembler's table with the commands they stand for (30_encoding.md R100). -/
def sampleWords : List (Word × Instr) :=
  [(0x00000000, .nop), (0x01000000, .endCmd), (0x0200001E, .wrl 0x00 30), (0x030FFFFF, .wrh 0x0F 0xFFFF),
   (0x0401FFFD, .setc 1 0xFFFD), (0x05000000, .clrc), (0x06030042, .sets 3 66), (0x10000000, .zigzag),
   (0x11000000, .idct4), (0x12000000, .ihad4), (0x13000000, .ihad2), (0x14000000, .mvdc), (0x15000005, .mrgdc 5)] ++
  [(0x18000000, .idct8 0), (0x200000FE, .qpadd 0xFE), (0x2100000A, .cqp 1 1 false), (0x22000002, .dqac true false),
   (0x23000000, .dqdcl), (0x24000000, .dqdcc), (0x30000001, .mcl 0 1), (0x31000004, .mcc 1 0), (0x38ABCDEF, .mcbi 0xABCDEF),
   (0x40000001, .bs true), (0x41000000, .dbl false), (0x42000001, .ldln true), (0x43000000, .stln false)]

end Sys2Proof.Claims

open Sys2Proof Sys2Proof.Machine Sys2Proof.Claims

/-! ### Encoding -/

/-- 30_encoding.md R91 to R96: every command, with every operand at every value its fields admit, decodes from its own
word. -/
def Obligations.DecodeOfEncodeIsTheCommand : Prop := ∀ i : Instr, decode (encode i) = .ok i

/-- 60_exceptions.md R225: the word a command's fault records is the very word that was decoded. -/
def Obligations.DecodedCommandEncodesItsWord : Prop := ∀ (w : Word) (i : Instr), decode w = .ok i → encode i = w

/-- 30_encoding.md R96, R97: the map has 26 rows, no two of which a word can select, and the decoder accepts exactly the
words that select a row. -/
def Obligations.DecoderAcceptsExactlyTheOpcodeMap : Prop :=
  opcodeMap.length = 26 ∧
  (∀ w : Word, ∀ r ∈ opcodeMap, ∀ r' ∈ opcodeMap, r.selects w = true → r'.selects w = true → r = r') ∧
  ∀ w : Word, (∃ i, decode w = .ok i) ↔ ∃ r ∈ opcodeMap, r.selects w = true

/-- 30_encoding.md R91: format Z, the opcode in bits [31:24] and bits [23:0] zero, for the ten commands that use it. -/
def Obligations.FormatZWordsHaveZeroLowBits : Prop :=
  ∀ p ∈ ([(0x00, .nop), (0x01, .endCmd), (0x05, .clrc), (0x10, .zigzag), (0x11, .idct4), (0x12, .ihad4), (0x13, .ihad2),
      (0x14, .mvdc), (0x23, .dqdcl), (0x24, .dqdcc)] : List (Word × Instr)),
    encode p.2 = p.1 <<< 24 ∧
    ∀ w : Word, w >>> 24 = p.1 →
      (w % 0x1000000 = 0 → decode w = .ok p.2) ∧ (w % 0x1000000 ≠ 0 → decode w = .error .reservedBitSet)

/-- 30_encoding.md R102: stored as bytes a word is little-endian, and the bytes of a command decode to it. -/
def Obligations.StoredWordsAreLittleEndian : Prop :=
  wordBytes 0x0200001E = [0x1E, 0x00, 0x00, 0x02] ∧
  (∀ w : Word, ∀ k : Fin 4, ((wordBytes w)[k.val]?.map BitVec.toNat) = some (w.toNat / 256 ^ k.val % 256)) ∧
  ∀ (i : Instr) (rest : List Byte), decodeBytes (wordBytes (encode i) ++ rest) = .ok (i, rest)

/-- 30_encoding.md R100: words of the assembler's table, one or more of every family, decode to their commands. -/
def Obligations.TableWordsDecode : Prop := ∀ p ∈ sampleWords, decode p.1 = .ok p.2

/-- 30_encoding.md R101: WR32 loads a 32-bit register with two commands, from any value it held. -/
def Obligations.Wr32LoadsAWideRegister : Prop :=
  ∀ (r : CReg) (v : Word) (s : State), r ∈ [CReg.bspMv, .bsqMv, .mcX, .mcY, .refBase, .curBase] →
    ∃ i j t u, assemble (.wr32 (.name r) v.toNat) = some [i, j] ∧ exec i s = .next t ∧ exec j t = .next u ∧
      u.regs.read r = v ∧ (∀ r', r' ≠ r → u.regs.read r' = s.regs.read r') ∧
      u = { s with regs := u.regs, cix := s.cix + 2 }

/-! ### The sequencer -/

/-- 30_encoding.md R104: when `STATE` is RUN and the head of the queue decodes to `i`, the step is the meaning of `i` on
the state with that word removed; when it decodes to no command, the step is the fault entry with ParseError; when the
sequencer is not enabled, the step does nothing (log 14). -/
def Obligations.StepRunsTheDecodedCommand : Prop :=
  (∀ (s : State) (w : Word) (rest : List Word) (i : Instr), s.status = .run → s.queue = w :: rest → decode w = .ok i →
    step s = exec i { s with queue := rest }) ∧
  (∀ (s : State) (w : Word) (rest : List Word) (e : DecodeError), s.status = .run → s.queue = w :: rest →
    decode w = .error e → step s = .next (faulted { s with queue := rest } .parseError w)) ∧
  ∀ s : State, s.status ≠ .run ∨ s.queue = [] → step s = .next s

/-- 30_encoding.md R104, R105, 60_exceptions.md R228, R229: for the word at the head of the queue, the first fault that
applies is recorded, with nothing else changed but the word's removal; otherwise the command executes and completes. -/
def Obligations.FirstApplicableFaultIsTaken : Prop :=
  ∀ (s : State) (w : Word) (rest : List Word), s.status = .run → s.queue = w :: rest →
    (faultOfWord w s ≠ .none →
      step s = .next (faulted { s with queue := rest } (faultOfWord w s) w)) ∧
    (faultOfWord w s = .none →
      ∃ i t, decode w = .ok i ∧ exec i { s with queue := rest } = .next t ∧ step s = .next t ∧ t.cix = s.cix + 1 ∧
        t.faultCause = s.faultCause ∧ t.faultCmd = s.faultCmd ∧ t.faultCix = s.faultCix ∧ t.status ≠ .fault)

/-- 70_reset_and_hazards.md R264, 30_encoding.md R99, R104: every step answers a next state, and as many steps as the queue
holds words leave the block quiescent: halted, or with every word executed. -/
def Obligations.QueueDrainsOrTheBlockHalts : Prop :=
  ∀ s : State, ∃ t, Sys2Proof.core.run s.queue.length s = .next t ∧ t.quiescent = true

/-- 00_scope.md R14, 10_state.md R40, 60_exceptions.md R230: every command either enters the fault state, changing only
the capture registers and `STATE`, or completes with `CIX` advanced by 1 modulo 2^32; either way the queue and the
configuration stay. -/
def Obligations.CommandsFaultPreciselyOrComplete : Prop :=
  ∀ (i : Instr) (s : State),
    (∃ c, c ≠ .none ∧ exec i s = .next (faulted s c (encode i))) ∨
    (∃ t, exec i s = .next t ∧ t.cix = s.cix + 1 ∧ t.faultCause = s.faultCause ∧ t.faultCmd = s.faultCmd ∧
      t.faultCix = s.faultCix ∧ (i ≠ .endCmd → t.status = s.status) ∧ t.queue = s.queue ∧ t.waiting = s.waiting ∧
      t.cfg = s.cfg ∧ t.freeCtr = s.freeCtr)

/-- 30_encoding.md R105 step 3, 60_exceptions.md R221: a command with a field outside its allowed values raises
ParseError in every state, and a well-formed command never raises it. -/
def Obligations.ParseErrorDependsOnTheWordAlone : Prop :=
  ∀ (i : Instr) (s : State),
    (i.wellFormed = false → exec i s = .next (faulted s .parseError (encode i))) ∧
    (i.wellFormed = true → s.faultCause ≠ .parseError → ∃ t, exec i s = .next t ∧ t.faultCause ≠ .parseError)

/-! ### Invariants -/

/-- 70_reset_and_hazards.md R253: the state right after reset meets the invariant. Its parameters, tables and sample
memory are the model's choice (log 2, log 3, log 4, log 5). -/
def Obligations.ResetMeetsTheInvariant : Prop := State.reset.Inv

/-- 10_state.md R39, R41, R42, R44, 20_memory.md R76: every step of the sequencer keeps the invariant, from every state
that has it: legal control registers, capture registers 0 outside FAULT, sample memory in canonical form inside
`SM_SIZE`, queue within its capacity. -/
def Obligations.EveryStepKeepsTheInvariant : Prop :=
  ∀ s t : State, s.Inv → step s = .next t → t.Inv

/-- 10_state.md R39, R42, R44, R48, 70_reset_and_hazards.md R250, R253: so does every other event of the system, whatever
free values a reset draws (log 7). -/
def Obligations.EveryEventKeepsTheInvariant : Prop :=
  ∀ (e : Event) (s t : State), s.Inv → sysStep e s = .next t → t.Inv

/-! ### Who writes what -/

/-- 10_state.md R21, R23, R24, R25, 20_memory.md R73: which commands write each data register file, and of all commands
only STLN writes the sample memory. -/
def Obligations.DataFilesHaveTheirNamedWriters : Prop :=
  ∀ (i : Instr) (s t : State), exec i s = .next t →
    (t.coef ≠ s.coef → (∃ n v, i = .setc n v) ∨ (∃ k, i = .mrgdc k) ∨ (∃ a b, i = .dqac a b) ∨
      i ∈ [Instr.clrc, .zigzag, .idct4, .ihad4, .ihad2, .dqdcl, .dqdcc]) ∧
    (t.dc ≠ s.dc → i = .mvdc) ∧
    (t.line ≠ s.line → (∃ n v, i = .sets n v) ∨ (∃ d, i = .ldln d) ∨ (∃ c, i = .dbl c)) ∧
    (t.pred ≠ s.pred → (∃ h w, i = .mcl h w) ∨ ∃ h w, i = .mcc h w) ∧
    (t.sm ≠ s.sm → ∃ d, i = .stln d)

/-- 10_state.md R26, column "Written by": the commands that write each control register. -/
def Obligations.ControlRegistersHaveTheirNamedWriters : Prop :=
  ∀ (i : Instr) (s t : State) (r : CReg), exec i s = .next t → t.regs.read r ≠ s.regs.read r →
    (∃ v, i = .wrl (BitVec.ofNat 8 (cregNum r)) v) ∨
    (∃ v, i = .wrh (BitVec.ofNat 8 (cregNum r)) v ∧ r ∈ [CReg.bspMv, .bsqMv, .mcX, .mcY, .refBase, .curBase]) ∨
    (∃ d, i = .qpadd d ∧ r = .qpy) ∨ (∃ a b c, i = .cqp a b c ∧ r ∈ [CReg.qpc, .dbQpp, .dbQpq]) ∨
    (∃ e, i = .bs e ∧ r = .dbBs)

/-! ### Control and data movement -/

/-- 40_control_data.md R110, R111: NOP changes nothing but `CIX`; END also sets `STATE` to DONE and so raises `irq`. -/
def Obligations.NopAndEndResults : Prop :=
  ∀ s : State, exec .nop s = .next { s with cix := s.cix + 1 } ∧
    exec .endCmd s = .next { s with status := .done, cix := s.cix + 1 } ∧
    State.irq { s with status := .done, cix := s.cix + 1 } = true

/-- 40_control_data.md R112, 10_state.md R26: WRL of a legal value makes the named register read as the immediate,
sign-extended for the four signed registers and zero-extended for the others, and changes nothing else. -/
def Obligations.WrlLoadsTheNamedRegister : Prop :=
  ∀ (idx : BitVec 8) (imm : BitVec 16) (s : State), wrlAllowed idx imm = true →
    ∃ r t, cregOfNum idx.toNat = some r ∧ exec (.wrl idx imm) s = .next t ∧
      t.regs.read r = (if isSigned r then imm.signExtend 32 else imm.setWidth 32) ∧
      (∀ r', r' ≠ r → t.regs.read r' = s.regs.read r') ∧ t = { s with regs := t.regs, cix := s.cix + 1 }

/-- 40_control_data.md R113: WRH replaces bits [31:16] of the named 32-bit register and keeps bits [15:0]. -/
def Obligations.WrhReplacesTheHighHalf : Prop :=
  ∀ (idx : BitVec 8) (imm : BitVec 16) (s : State), wrhAllowed idx = true →
    ∃ r t, cregOfNum idx.toNat = some r ∧ exec (.wrh idx imm) s = .next t ∧
      (t.regs.read r).toNat = imm.toNat * 65536 + (s.regs.read r).toNat % 65536 ∧
      (∀ r', r' ≠ r → t.regs.read r' = s.regs.read r') ∧ t = { s with regs := t.regs, cix := s.cix + 1 }

/-- 40_control_data.md R114, R115, R116: SETC writes one sign-extended level, CLRC clears `C`, SETS writes one sample;
every other entry and everything else stays. -/
def Obligations.EntryWritesChangeOneEntry : Prop :=
  (∀ (n : BitVec 4) (imm : BitVec 16) (s : State), ∃ t, exec (.setc n imm) s = .next t ∧
    t = { s with coef := t.coef, cix := s.cix + 1 } ∧
    ∀ k : Fin 16, t.coef[k].toInt = if k.val = n.toNat then imm.toInt else s.coef[k].toInt) ∧
  (∀ s : State, ∃ t, exec .clrc s = .next t ∧ t = { s with coef := t.coef, cix := s.cix + 1 } ∧
    ∀ k : Fin 16, t.coef[k] = 0) ∧
  (∀ (n : BitVec 3) (imm : BitVec 8) (s : State), ∃ t, exec (.sets n imm) s = .next t ∧
    t = { s with line := t.line, cix := s.cix + 1 } ∧
    ∀ k : Fin 8, t.line[k] = if k.val = n.toNat then imm else s.line[k])

/-! ### Transform -/

/-- 41_transform.md R131: with a zig-zag table that is a permutation, ZIGZAG puts the level of scan position `k` at raster
position `ZIGZAG4x4[k]`, for every `k`, and changes nothing else. -/
def Obligations.ZigzagPermutesTheBlock : Prop :=
  ∀ s : State, s.cfg.zigzag4x4.toList.Nodup → ∃ t, exec .zigzag s = .next t ∧
    (∀ k : Fin 16, t.coef[s.cfg.zigzag4x4[k]] = s.coef[k]) ∧ t = { s with coef := t.coef, cix := s.cix + 1 }

/-- 41_transform.md R132: IDCT4 computes the two-pass butterfly with `wrap32` after every `+` and `-`, rows first. -/
def Obligations.IdctMatchesThePseudocode : Prop :=
  ∀ s : State, ∃ t, exec .idct4 s = .next t ∧ t = { s with coef := t.coef, cix := s.cix + 1 } ∧
    ∀ i j, (Block.at t.coef i j).toInt = idct wrapInt (fun i j => (Block.at s.coef i j).toInt) i j

/-- 41_transform.md R138 c: with all coefficients below 2^25 in magnitude no step of IDCT4 wraps: the result is the
mathematical one. -/
def Obligations.IdctIsExactOnBoundedBlocks : Prop :=
  ∀ s : State, (∀ i j, |(Block.at s.coef i j).toInt| < 2 ^ 25) → ∃ t, exec .idct4 s = .next t ∧
    ∀ i j, (Block.at t.coef i j).toInt = idct id (fun i j => (Block.at s.coef i j).toInt) i j

/-- 41_transform.md R133: IHAD4 is the matrix product `A * c * A`, wrapping at every step as well as once at the end. -/
def Obligations.Ihad4IsTheMatrixProduct : Prop :=
  ∀ s : State, ∃ t, exec .ihad4 s = .next t ∧ asMatrix t.coef = hadamardA * asMatrix s.coef * hadamardA ∧
    t = { s with coef := t.coef, cix := s.cix + 1 }

/-- 41_transform.md R134: IHAD2 transforms entries 0..3 with one wrap of each sum and keeps entries 4..15. -/
def Obligations.Ihad2TransformsFourEntries : Prop :=
  ∀ s : State, ∃ t, exec .ihad2 s = .next t ∧ t = { s with coef := t.coef, cix := s.cix + 1 } ∧
    t.coef[0].toInt = wrapInt (s.coef[0].toInt + s.coef[1].toInt + s.coef[2].toInt + s.coef[3].toInt) ∧
    t.coef[1].toInt = wrapInt (s.coef[0].toInt - s.coef[1].toInt + s.coef[2].toInt - s.coef[3].toInt) ∧
    t.coef[2].toInt = wrapInt (s.coef[0].toInt + s.coef[1].toInt - s.coef[2].toInt - s.coef[3].toInt) ∧
    t.coef[3].toInt = wrapInt (s.coef[0].toInt - s.coef[1].toInt - s.coef[2].toInt + s.coef[3].toInt) ∧
    ∀ k : Fin 16, 4 ≤ k.val → t.coef[k] = s.coef[k]

/-- 41_transform.md R135, R136: MVDC copies all sixteen entries to `DC`; MRGDC puts `DC[k]` at `C[0]` and keeps the
others. -/
def Obligations.DcMovesCopyEntries : Prop :=
  (∀ s : State, exec .mvdc s = .next { s with dc := s.coef, cix := s.cix + 1 }) ∧
  ∀ (n : BitVec 4) (s : State), ∃ t, exec (.mrgdc n) s = .next t ∧ t = { s with coef := t.coef, cix := s.cix + 1 } ∧
    (∀ k : Fin 16, k.val = n.toNat → t.coef[0] = s.dc[k]) ∧ ∀ k : Fin 16, k.val ≠ 0 → t.coef[k] = s.coef[k]

/-- 41_transform.md R137, 43_interp.md R178: IDCT8 and MCBI are any word of opcode 0x18 and 0x38, and always enter the
fault state with UnsupportedFeatureError, `CIX` not advanced and nothing else changed. -/
def Obligations.ReservedFeaturesAlwaysFault : Prop :=
  (∀ w : Word, w >>> 24 = 0x18 → ∃ x, decode w = .ok (.idct8 x)) ∧
  (∀ w : Word, w >>> 24 = 0x38 → ∃ x, decode w = .ok (.mcbi x)) ∧
  ∀ (x : BitVec 24) (s : State),
    exec (.idct8 x) s = .next (faulted s .unsupportedFeatureError (0x18000000 + x.setWidth 32)) ∧
    exec (.mcbi x) s = .next (faulted s .unsupportedFeatureError (0x38000000 + x.setWidth 32))

/-! ### Dequantization -/

/-- 42_dequant.md R153: QPADD wraps modulo 52 for a delta in -26..25, and raises ParseError for any other. -/
def Obligations.QpaddWrapsModulo52 : Prop :=
  ∀ (d : BitVec 8) (s : State), s.regs.qpy.toNat ≤ 51 →
    (-26 ≤ d.toInt ∧ d.toInt ≤ 25 →
      ∃ q : BitVec 6, exec (.qpadd d) s = .next { s with regs := { s.regs with qpy := q }, cix := s.cix + 1 } ∧
        (q.toNat : Int) = (s.regs.qpy.toNat + d.toInt) % 52) ∧
    (¬(-26 ≤ d.toInt ∧ d.toInt ≤ 25) → exec (.qpadd d) s = .next (faulted s .parseError (encode (.qpadd d))))

/-- 42_dequant.md R154: CQP writes the mapped QP, from the source read before the write, to the named register. -/
def Obligations.CqpMapsTheChromaQp : Prop :=
  ∀ (src dst : BitVec 2) (plane : Bool) (s : State), src ≠ 3 → dst ≠ 3 →
    ∃ (n : Fin 52) (v : BitVec 6),
      (n.val : Int) = max 0 (min 51 ((cqpValue src s.regs).toNat + (if plane then s.regs.cqpoCr.toInt else s.regs.cqpoCb.toInt))) ∧
      v.toNat = s.cfg.chromaQpTab[n].val ∧
      exec (.cqp src dst plane) s = .next { s with regs := cqpWrite dst v s.regs, cix := s.cix + 1 }

/-- 42_dequant.md R155: DQAC scales each entry by the factor and the shift of the selected QP, wrapping; entry 0 is kept
when `skipdc` is 1. -/
def Obligations.DqacScalesTheBlock : Prop :=
  ∀ (skipdc qsel : Bool) (s : State), ∃ t, exec (.dqac skipdc qsel) s = .next t ∧
    t = { s with coef := t.coef, cix := s.cix + 1 } ∧
    ∀ k : Fin 16,
      let qp := if qsel then s.regs.qpc.toNat else s.regs.qpy.toNat
      t.coef[k].toInt = if skipdc = true ∧ k.val = 0 then s.coef[k].toInt
        else wrapInt (wrapInt (s.coef[k].toInt * scaleFactor s.cfg qp k) * 2 ^ (qp / 6))

/-- 42_dequant.md R156: DQDCL scales all sixteen entries with the rounding below QP 12. -/
def Obligations.DqdclScalesTheLumaDc : Prop :=
  ∀ s : State, ∃ t, exec .dqdcl s = .next t ∧ t = { s with coef := t.coef, cix := s.cix + 1 } ∧
    ∀ k : Fin 16,
      let qp := s.regs.qpy.toNat
      let p := wrapInt (s.coef[k].toInt * scaleFactor s.cfg qp 0)
      t.coef[k].toInt = if 12 ≤ qp then wrapInt (p * 2 ^ (qp / 6 - 2))
        else if 6 ≤ qp then wrapInt (p + 1) / 2 else wrapInt (p + 2) / 4

/-- 42_dequant.md R157: DQDCC scales entries 0..3 with the final floor by two and keeps the others. -/
def Obligations.DqdccScalesTheChromaDc : Prop :=
  ∀ s : State, ∃ t, exec .dqdcc s = .next t ∧ t = { s with coef := t.coef, cix := s.cix + 1 } ∧
    ∀ k : Fin 16,
      let qp := s.regs.qpc.toNat
      t.coef[k].toInt = if k.val < 4 then wrapInt (wrapInt (s.coef[k].toInt * scaleFactor s.cfg qp 0) * 2 ^ (qp / 6)) / 2
        else s.coef[k].toInt

/-- 42_dequant.md R155, R158: on levels of 16 bits and legal QPs nothing wraps, DQAC is the exact product, and all three
scalers agree with the later edition's formulas (weight 16, shifts smaller by 4, 6 and 5). -/
def Obligations.ScalersAgreeWithTheLaterEdition : Prop :=
  ∀ s : State, s.regs.qpy.toNat ≤ 51 → s.regs.qpc.toNat ≤ 51 →
    (∀ k : Fin 16, -32768 ≤ s.coef[k].toInt ∧ s.coef[k].toInt ≤ 32767) →
    ∃ t u v, exec (.dqac false false) s = .next t ∧ exec .dqdcl s = .next u ∧ exec .dqdcc s = .next v ∧
      ∀ k : Fin 16,
        let e := s.regs.qpy.toNat / 6
        let f := s.regs.qpc.toNat / 6
        let x := s.coef[k].toInt * 16 * scaleFactor s.cfg s.regs.qpy.toNat k
        let y := s.coef[k].toInt * 16 * scaleFactor s.cfg s.regs.qpy.toNat 0
        let z := s.coef[k].toInt * 16 * scaleFactor s.cfg s.regs.qpc.toNat 0
        t.coef[k].toInt = s.coef[k].toInt * scaleFactor s.cfg s.regs.qpy.toNat k * 2 ^ e ∧
        t.coef[k].toInt = (if e < 4 then (x + 2 ^ (3 - e)) / 2 ^ (4 - e) else x * 2 ^ (e - 4)) ∧
        u.coef[k].toInt = (if e < 6 then (y + 2 ^ (5 - e)) / 2 ^ (6 - e) else y * 2 ^ (e - 6)) ∧
        (k.val < 4 → v.coef[k].toInt = z * 2 ^ f / 32)

/-! ### Interpolation -/

/-- 43_interp.md R175, R179, 10_state.md R25: MCL of a legal size with a valid reference plane writes the `w x h`
rectangle with the luma samples at `(X >> 2) + x`, `(Y >> 2) + y` and the one fraction of the block, with no narrowing
loss, and leaves every other entry and everything else. -/
def Obligations.MclPredictsTheRectangle : Prop :=
  ∀ (hc wc : BitVec 2) (s : State), LegalSize hc wc → s.regs.refValid = 1 → RefOK s →
    ∃ t, exec (.mcl hc wc) s = .next t ∧ t = { s with pred := t.pred, cix := s.cix + 1 } ∧
      ∀ y x : Fin 16,
        let X := s.regs.mcX.toInt
        let Y := s.regs.mcY.toInt
        (x.val < 4 * 2 ^ wc.toNat ∧ y.val < 4 * 2 ^ hc.toNat →
          ∀ xFrac yFrac : Fin 4, (xFrac.val : Int) = X % 4 → (yFrac.val : Int) = Y % 4 →
            ((t.pred[y][x]).toNat : Int) = lumaSample s.cfg.lumaTaps (refSample (refPlane s.regs) s.sm) xFrac yFrac
              (X / 4 + x.val) (Y / 4 + y.val)) ∧
        (¬(x.val < 4 * 2 ^ wc.toNat ∧ y.val < 4 * 2 ^ hc.toNat) → t.pred[y][x] = s.pred[y][x])

/-- 43_interp.md R176, R177, R179: the same for MCC: the bilinear blend of the four clamped neighbours, in 0..255 without
a clip. -/
def Obligations.MccPredictsTheRectangle : Prop :=
  ∀ (hc wc : BitVec 2) (s : State), LegalSize hc wc → s.regs.refValid = 1 → RefOK s →
    ∃ t, exec (.mcc hc wc) s = .next t ∧ t = { s with pred := t.pred, cix := s.cix + 1 } ∧
      ∀ y x : Fin 16,
        let xF := s.regs.mcX.toInt % 8
        let yF := s.regs.mcY.toInt % 8
        let xi := s.regs.mcX.toInt / 8 + x.val
        let yi := s.regs.mcY.toInt / 8 + y.val
        let r := refSample (refPlane s.regs) s.sm
        (x.val < 2 * 2 ^ wc.toNat ∧ y.val < 2 * 2 ^ hc.toNat →
          ((t.pred[y][x]).toNat : Int) = ((8 - xF) * (8 - yF) * r xi yi + xF * (8 - yF) * r (xi + 1) yi +
            (8 - xF) * yF * r xi (yi + 1) + xF * yF * r (xi + 1) (yi + 1) + 32) / 64) ∧
        (¬(x.val < 2 * 2 ^ wc.toNat ∧ y.val < 2 * 2 ^ hc.toNat) → t.pred[y][x] = s.pred[y][x])

/-- 43_interp.md R171 to R174 with the default taps (log 5): the half-sample formulas and the sixteen-entry table, from the
samples around the position. -/
def Obligations.LumaTableWithDefaultTaps : Prop :=
  ∀ (r : Int → Int → Int) (x y : Int),
    let L := lumaSample defaultLumaTaps r
    let b := fun y => max 0 (min 255 ((r (x - 2) y - 5 * r (x - 1) y + 20 * r x y + 20 * r (x + 1) y - 5 * r (x + 2) y +
      r (x + 3) y + 16) / 32))
    let h1 := fun x => r x (y - 2) - 5 * r x (y - 1) + 20 * r x y + 20 * r x (y + 1) - 5 * r x (y + 2) + r x (y + 3)
    let h := fun x => max 0 (min 255 ((h1 x + 16) / 32))
    let j := max 0 (min 255 ((h1 (x - 2) - 5 * h1 (x - 1) + 20 * h1 x + 20 * h1 (x + 1) - 5 * h1 (x + 2) + h1 (x + 3) +
      512) / 1024))
    let avg := fun u v : Int => (u + v + 1) / 2
    L 0 0 x y = r x y ∧ L 1 0 x y = avg (r x y) (b y) ∧ L 2 0 x y = b y ∧ L 3 0 x y = avg (r (x + 1) y) (b y) ∧
    L 0 1 x y = avg (r x y) (h x) ∧ L 1 1 x y = avg (b y) (h x) ∧ L 2 1 x y = avg (b y) j ∧ L 3 1 x y = avg (b y) (h (x + 1)) ∧
    L 0 2 x y = h x ∧ L 1 2 x y = avg (h x) j ∧ L 2 2 x y = j ∧ L 3 2 x y = avg j (h (x + 1)) ∧
    L 0 3 x y = avg (r x (y + 1)) (h x) ∧ L 1 3 x y = avg (h x) (b (y + 1)) ∧ L 2 3 x y = avg j (b (y + 1)) ∧
    L 3 3 x y = avg (h (x + 1)) (b (y + 1))

/-- 43_interp.md R175, 95_test_vectors.md 2.4: a flat reference plane of value `v`, whatever the rest of the sample memory
holds, predicts `v` everywhere, at every position and
fraction, because the taps sum to 32 and the chroma weights to 64. -/
def Obligations.FlatPlanePredictsFlatBlock : Prop :=
  ∀ (hc wc : BitVec 2) (s : State) (v : Byte), LegalSize hc wc → s.regs.refValid = 1 → RefOK s →
    s.cfg.lumaTaps.toList.sum = 32 →
    (∀ x y : Nat, x < s.regs.refW.toNat → y < s.regs.refH.toNat →
      s.memRead (s.regs.refBase.toNat + y * s.regs.refStride.toNat + x) = v) →
    ∃ t u, exec (.mcl hc wc) s = .next t ∧ exec (.mcc hc wc) s = .next u ∧ ∀ y x : Fin 16,
      (x.val < 4 * 2 ^ wc.toNat → y.val < 4 * 2 ^ hc.toNat → t.pred[y][x] = v) ∧
      (x.val < 2 * 2 ^ wc.toNat → y.val < 2 * 2 ^ hc.toNat → u.pred[y][x] = v)

/-- 20_memory.md R72, R76, 43_interp.md R171, 44_deblock.md R199: a reference fetch at any coordinates reads the byte at
the address the spec computes from the coordinates clamped into the plane, the eight samples of a line stand at the
addresses it computes along the row or down the column, and after its checks no command reaches outside the sample
memory. -/
def Obligations.AccessesStayInsideTheSampleMemory : Prop :=
  ∀ s : State,
    (RefOK s → ∀ x y : Int,
      (refAddr (refPlane s.regs) x y : Int) = s.regs.refBase.toNat +
        max 0 (min ((s.regs.refH.toNat : Int) - 1) y) * s.regs.refStride.toNat +
        max 0 (min ((s.regs.refW.toNat : Int) - 1) x) ∧
      refSample (refPlane s.regs) s.sm x y = ((s.memRead (refAddr (refPlane s.regs) x y)).toNat : Int) ∧
      refAddr (refPlane s.regs) x y < s.cfg.smSize) ∧
    ∀ dir, LineFits dir s → ∀ k < 8,
      lineAddr dir s.regs k = (if dir
        then s.regs.curBase.toNat + (s.regs.dbY.toNat - 4 + k) * s.regs.curStride.toNat + s.regs.dbX.toNat
        else s.regs.curBase.toNat + s.regs.dbY.toNat * s.regs.curStride.toNat + (s.regs.dbX.toNat - 4 + k)) ∧
      lineAddr dir s.regs k < s.cfg.smSize

/-! ### Deblocking -/

/-- 44_deblock.md R191: BS writes the boundary strength of the four registers and the edge flag to `DB_BS`, a value in
0..4, and changes nothing else. -/
def Obligations.BsComputesTheBoundaryStrength : Prop :=
  ∀ (mbedge : Bool) (s : State), ∃ d : BitVec 3,
    exec (.bs mbedge) s = .next { s with regs := { s.regs with dbBs := d }, cix := s.cix + 1 } ∧
    d.toNat = strength mbedge s.regs.bspInfo s.regs.bsqInfo s.regs.bspMv s.regs.bsqMv ∧ d.toNat ≤ 4

/-- 44_deblock.md R192, R193, R194, R196: the threshold indices from the two QPs and the doubled offsets, the thresholds
`alpha` and `beta` that stand at them in their tables, and the clamp `tc0` of `DB_BS` 1, 2, 3. -/
def Obligations.ThresholdIndicesAreClipped : Prop :=
  ∀ g : CtrlRegs,
    ((indexA g).val : Int) = max 0 (min 51 ((g.dbQpp.toNat + g.dbQpq.toNat + 1) / 2 + 2 * g.alphaOff.toInt)) ∧
    ((indexB g).val : Int) = max 0 (min 51 ((g.dbQpp.toNat + g.dbQpq.toNat + 1) / 2 + 2 * g.betaOff.toInt)) ∧
    ∀ c : Config,
      alphaOf c g = ((c.alphaTab[indexA g]).val : Int) ∧ betaOf c g = ((c.betaTab[indexB g]).val : Int) ∧
      ∀ column : Fin 3, tc0Of c g (column.val + 1) = ((c.tc0Tab[indexA g][column]).val : Int)

/-- 44_deblock.md R198, R201 b, c: DBL completes in every state and changes only `S`; `p3` and `q3` never, on a chroma
line only `p0` and `q0`; nothing where `DB_BS` is 0 or the line fails the sample-difference thresholds. -/
def Obligations.DblChangesOnlySamplesNearTheEdge : Prop :=
  ∀ (chroma : Bool) (s : State), ∃ t, exec (.dbl chroma) s = .next t ∧ t = { s with line := t.line, cix := s.cix + 1 } ∧
    t.line[0] = s.line[0] ∧ t.line[7] = s.line[7] ∧
    (chroma = true → t.line[1] = s.line[1] ∧ t.line[2] = s.line[2] ∧ t.line[5] = s.line[5] ∧ t.line[6] = s.line[6]) ∧
    (¬ Filtered s → t.line = s.line)

/-- 44_deblock.md R196: on a line that passes the thresholds with `DB_BS` in 1..3, DBL gives exactly the samples of the
normal filter; `p1'` and `q1'` need no clip. -/
def Obligations.NormalFilterIsExact : Prop :=
  ∀ (chroma : Bool) (s : State), Filtered s → s.regs.dbBs.toNat ≤ 3 →
    ∃ t, exec (.dbl chroma) s = .next t ∧ t = { s with line := t.line, cix := s.cix + 1 } ∧
      ∀ k : Fin 8, smp t.line k = normalSample chroma (betaOf s.cfg s.regs) (tc0Of s.cfg s.regs s.regs.dbBs.toNat) s.line k

/-- 44_deblock.md R201 f: the normal filter moves `p0` and `q0` by at most 27 and `p1` and `q1` by at most 25. -/
def Obligations.NormalFilterMovesAreBounded : Prop :=
  ∀ (chroma : Bool) (s : State), s.regs.dbBs.toNat ≤ 3 → ∃ t, exec (.dbl chroma) s = .next t ∧
    |smp t.line 3 - smp s.line 3| ≤ 27 ∧ |smp t.line 4 - smp s.line 4| ≤ 27 ∧
    |smp t.line 2 - smp s.line 2| ≤ 25 ∧ |smp t.line 5 - smp s.line 5| ≤ 25

/-- 44_deblock.md R197, R202: on a line that passes the thresholds with `DB_BS` 4, DBL gives exactly the samples of the
strong filter, every one a weighted mean that needs no clip. -/
def Obligations.StrongFilterIsExact : Prop :=
  ∀ (chroma : Bool) (s : State), Filtered s → s.regs.dbBs = 4 →
    ∃ t, exec (.dbl chroma) s = .next t ∧ t = { s with line := t.line, cix := s.cix + 1 } ∧
      ∀ k : Fin 8, smp t.line k = strongSample chroma (alphaOf s.cfg s.regs) (betaOf s.cfg s.regs) s.line k

/-- 44_deblock.md R201 g: with `DB_BS` 4, reversing the line and exchanging the two QPs reverses the result. -/
def Obligations.StrongFilterIsMirrorSymmetric : Prop :=
  ∀ (chroma : Bool) (s : State), s.regs.dbBs = 4 →
    ∃ t u, exec (.dbl chroma) s = .next t ∧ exec (.dbl chroma) (mirrored s) = .next u ∧ u.line = t.line.reverse

/-- 44_deblock.md R195, R201 e: with the default tables (log 5) a line is unchanged when either index is below
16. -/
def Obligations.LowIndicesLeaveTheLine : Prop :=
  ∀ (chroma : Bool) (s : State), s.cfg.alphaTab = defaultAlphaTab → s.cfg.betaTab = defaultBetaTab →
    (indexA s.regs).val < 16 ∨ (indexB s.regs).val < 16 → exec (.dbl chroma) s = .next { s with cix := s.cix + 1 }

/-- 44_deblock.md R199: LDLN loads the eight samples across the edge when the line fits, and raises BufferSizeError when
it does not. -/
def Obligations.LdlnLoadsTheLine : Prop :=
  ∀ (dir : Bool) (s : State),
    (LineFits dir s → ∃ t, exec (.ldln dir) s = .next t ∧ t = { s with line := t.line, cix := s.cix + 1 } ∧
      ∀ k : Fin 8, t.line[k] = s.memRead (if dir
        then s.regs.curBase.toNat + (s.regs.dbY.toNat - 4 + k.val) * s.regs.curStride.toNat + s.regs.dbX.toNat
        else s.regs.curBase.toNat + s.regs.dbY.toNat * s.regs.curStride.toNat + (s.regs.dbX.toNat - 4 + k.val))) ∧
    (¬ LineFits dir s → exec (.ldln dir) s = .next (faulted s .bufferSizeError (encode (.ldln dir))))

/-- 44_deblock.md R200: STLN stores `S[1..6]` at the middle six addresses of the line, leaves every other byte of the
sample memory and everything else, and raises BufferSizeError with nothing stored when the line does not fit. -/
def Obligations.StlnStoresTheMiddleSix : Prop :=
  ∀ (dir : Bool) (s : State), Memory.wf s.sm →
    (LineFits dir s → ∃ t, exec (.stln dir) s = .next t ∧ t = { s with sm := t.sm, cix := s.cix + 1 } ∧
      (∀ k : Fin 8, 1 ≤ k.val → k.val ≤ 6 → t.memRead (lineAddr dir s.regs k.val) = s.line[k]) ∧
      ∀ a, (∀ k : Fin 8, 1 ≤ k.val → k.val ≤ 6 → a ≠ lineAddr dir s.regs k.val) → t.memRead a = s.memRead a) ∧
    (¬ LineFits dir s → exec (.stln dir) s = .next (faulted s .bufferSizeError (encode (.stln dir))))

/-- 20_memory.md R84, 44_deblock.md R200: LDLN followed by STLN of the same line leaves the sample memory, as data, as
it was. -/
def Obligations.LoadThenStoreKeepsTheSampleMemory : Prop :=
  ∀ (dir : Bool) (s : State), Memory.wf s.sm → LineFits dir s →
    ∃ t u, exec (.ldln dir) s = .next t ∧ exec (.stln dir) t = .next u ∧ u.sm = s.sm

/-! ### The sample memory -/

/-- 20_memory.md R77: memories in canonical form that read the same everywhere are the same memory. -/
def Obligations.CanonicalMemoriesAreEqualWhenTheyReadEqual : Prop :=
  ∀ m n : List Host.Cell, Memory.wf m → Memory.wf n → (∀ a, Memory.read m a = Memory.read n a) → m = n

/-! ### Status, host port, reset -/

/-- 10_state.md R45: `irq` is 1 exactly when `STATE` is not RUN. -/
def Obligations.IrqIsStateNotRun : Prop := ∀ s : State, s.irq = true ↔ s.status ≠ .run

/-- 10_state.md R41: `STATE` changes only by its four transitions: RUN to DONE by END, RUN to FAULT by a fault of the
sequencer, DONE to RUN by the host's ACK, any state to RUN by reset. -/
def Obligations.StateHasOnlyItsTransitions : Prop :=
  ∀ (e : Event) (s t : State), sysStep e s = .next t → t.status ≠ s.status →
    (s.status = .run ∧ t.status = .done ∧ e = .sequencer ∧ s.queue.head? = some (encode .endCmd)) ∨
    (s.status = .run ∧ t.status = .fault ∧ e = .sequencer ∧ t.faultCause ≠ .none) ∨
    (s.status = .done ∧ t.status = .run ∧ ∃ v : Word, e = .host (.portWrite 0x000 v) ∧ v.getLsbD 1 = true) ∨
    (t.status = .run ∧ IsReset e)

/-- 60_exceptions.md R233: ACK returns DONE to RUN with nothing else changed, so that the sequencer continues with the
next queued word, and has no effect in RUN or FAULT; with both bits set the write is a reset. -/
def Obligations.AckReturnsOnlyFromDone : Prop :=
  ∀ (v : Word) (s : State), v.getLsbD 1 = true →
    (v.getLsbD 0 = false → s.status = .done → portWrite 0x000 v s = .next { s with status := .run }) ∧
    (v.getLsbD 0 = false → s.status ≠ .done → portWrite 0x000 v s = .next s) ∧
    (v.getLsbD 0 = true → portWrite 0x000 v s = .next s.softReset) ∧
    (s.status = .done → ∀ (w : Word) (rest : List Word) (i : Instr), s.queue = w :: rest → decode w = .ok i →
      step { s with status := .run } = exec i { s with status := .run, queue := rest })

/-- 60_exceptions.md R231, R232, R234: in FAULT the sequencer executes nothing, and no host action but a soft reset
changes `STATE`, the capture registers, `CIX`, the registers or the data files, or takes a word from the queue: pushed
words enter at its end, in order, or wait (10_state.md R44; log 4). -/
def Obligations.FaultIsLeftOnlyByReset : Prop :=
  ∀ s : State, s.status = .fault → step s = .next s ∧
    ∀ (a : HostAction) (t : State), hostAct a s = .next t → (∀ v : Word, v.getLsbD 0 = true → a ≠ .portWrite 0x000 v) →
      ∃ entered pushed, t = { s with
          queue := s.queue ++ entered, waiting := t.waiting, sm := t.sm, freeCtr := t.freeCtr } ∧
        entered ++ t.waiting = s.waiting ++ pushed

/-- 10_state.md R48: the host writes no register or data file, `CIX` or capture register except by `RST`, which it can
do in any state. -/
def Obligations.HostWritesNoRegister : Prop :=
  ∀ (a : HostAction) (s t : State), hostAct a s = .next t → (∀ v : Word, v.getLsbD 0 = true → a ≠ .portWrite 0x000 v) →
    t.coef = s.coef ∧ t.dc = s.dc ∧ t.line = s.line ∧ t.pred = s.pred ∧ t.regs = s.regs ∧ t.cix = s.cix ∧
      t.faultCause = s.faultCause ∧ t.faultCmd = s.faultCmd ∧ t.faultCix = s.faultCix ∧ t.cfg = s.cfg

/-- 10_state.md R46, R47: the status words of the host port read exactly in every state; the data words read the registers
and files they name while the block is quiescent; write-only words and words not listed read 0 in every state; a write
of any word but `HCTRL` and `CMD` is ignored; and no read changes anything, but for the model's own draw counter while
the block is not quiescent (log 8). -/
def Obligations.HostPortReadsTheState : Prop :=
  (∀ s : State,
    portRead 0x001 s = ((match s.status with | .run => 0 | .done => 5 | .fault => 6), s) ∧
    portRead 0x002 s = ((match s.faultCause with
      | .none => 0 | .parseError => 1 | .referenceError => 2 | .unsupportedFeatureError => 3 | .bufferSizeError => 4), s) ∧
    portRead 0x003 s = (s.faultCmd, s) ∧ portRead 0x004 s = (s.faultCix, s) ∧ portRead 0x005 s = (s.cix, s)) ∧
  (∀ s : State, s.quiescent = true →
    (∀ r : CReg, portRead (0x040 + cregNum r) s = (s.regs.read r, s)) ∧
    (∀ k : Fin 16, portRead (0x080 + k.val) s = (s.coef[k], s) ∧ portRead (0x090 + k.val) s = (s.dc[k], s)) ∧
    (∀ k : Fin 8, portRead (0x0A0 + k.val) s = ((s.line[k]).setWidth 32, s)) ∧
    ∀ y x : Fin 16, portRead (0x100 + 16 * y.val + x.val) s = ((s.pred[y][x]).setWidth 32, s)) ∧
  (∀ (idx : Nat) (s : State), ¬ PortReadable idx → portRead idx s = (0, s)) ∧
  (∀ (idx : Nat) (v : Word) (s : State), idx ≠ 0x000 → idx ≠ 0x006 → portWrite idx v s = .next s) ∧
  ∀ (idx : Nat) (s : State),
    (s.quiescent = true → (portRead idx s).2 = s) ∧ ∃ n, (portRead idx s).2 = { s with freeCtr := n }

/-- 10_state.md R44, 93_implementation_defined.md U13: a push with room and none waiting appends its word to the queue; else
it waits and nothing else changes. The oldest waiting push completes when the queue has room and never before; in RUN the
next step makes the room. Whatever happens, no word is dropped, duplicated or reordered, but for the word the sequencer
removes and the words a reset discards. That a push still waiting at a reset survives it is the model's reading of U13
(log 4). -/
def Obligations.PushAppendsOrWaits : Prop :=
  (∀ (w : Word) (s : State),
    (s.waiting = [] → s.queue.length < s.cfg.cmdqDepth →
      portWrite 0x006 w s = .next { s with queue := s.queue ++ [w] }) ∧
    (s.waiting ≠ [] ∨ s.cfg.cmdqDepth ≤ s.queue.length →
      portWrite 0x006 w s = .next { s with waiting := s.waiting ++ [w] })) ∧
  (∀ (s : State) (w : Word) (rest : List Word), s.waiting = w :: rest →
    (s.queue.length < s.cfg.cmdqDepth →
      hostAct .pushCompletes s = .next { s with queue := s.queue ++ [w], waiting := rest }) ∧
    (s.cfg.cmdqDepth ≤ s.queue.length → hostAct .pushCompletes s = .next s) ∧
    (s.status = .run → s.queue ≠ [] → s.queue.length ≤ s.cfg.cmdqDepth →
      ∃ t, step s = .next t ∧ hostAct .pushCompletes t = .next { t with queue := s.queue.tail ++ [w], waiting := rest })) ∧
  (∀ s : State, s.waiting = [] → hostAct .pushCompletes s = .next s) ∧
  ∀ (e : Event) (s t : State), sysStep e s = .next t →
    (∀ w, e = .host (.portWrite 0x006 w) → t.queue ++ t.waiting = (s.queue ++ s.waiting) ++ [w]) ∧
    (e = .sequencer → s.status = .run → t.queue = s.queue.tail ∧ t.waiting = s.waiting) ∧
    (IsReset e → t.queue = [] ∧ t.waiting = s.waiting) ∧
    ((∀ w, e ≠ .host (.portWrite 0x006 w)) → ¬ IsReset e → ¬(e = .sequencer ∧ s.status = .run) →
      t.queue ++ t.waiting = s.queue ++ s.waiting)

/-- 20_memory.md R70, R81: the host's bytes: a write while quiescent to an existing byte is read back and leaves the
others; that it faults outside `SM_SIZE` and is refused while not quiescent is the model's choice (log 10, log 9). -/
def Obligations.HostMemoryAccess : Prop :=
  ∀ (a : Nat) (v : Byte) (s : State), Memory.wf s.sm →
    (s.quiescent = true → a < s.cfg.smSize → ∃ t, hostSmWrite a v s = .next t ∧ t = { s with sm := t.sm } ∧
      t.memRead a = v ∧ ∀ b, b ≠ a → t.memRead b = s.memRead b) ∧
    (s.quiescent = true → s.cfg.smSize ≤ a → hostSmWrite a v s = .fault .smAddressOutside) ∧
    (s.quiescent = false → hostSmWrite a v s = .refused .hostRacesBlock)

/-- 70_reset_and_hazards.md R250, R253: what reset leaves: after the hard reset of the model's `reset`, and after a soft
reset in any state, STATE is RUN, `irq` 0, `CIX` and the capture registers 0, the queue empty, every control register 0,
a legal value; the soft reset leaves the sample memory and the tables. -/
def Obligations.ResetLeavesTheStatedValues : Prop :=
  (∀ t : State, (t = State.reset ∨ ∃ s : State, t = s.softReset ∨ t = s.hardReset) →
    t.status = .run ∧ t.irq = false ∧ t.cix = 0 ∧ t.faultCause = .none ∧ t.faultCmd = 0 ∧ t.faultCix = 0 ∧ t.queue = [] ∧
      t.regs.Legal ∧ ∀ r : CReg, t.regs.read r = 0) ∧
  (∀ (v : Word) (s : State), v.getLsbD 0 = true → portWrite 0x000 v s = .next s.softReset) ∧
  ∀ s : State, s.softReset.sm = s.sm ∧ s.softReset.cfg = s.cfg ∧ s.hardReset.cfg = s.cfg
end

