-- ==== Sys2Proof/Laws/Arith.lean ====
section
/-! SUPPORT. The ranges of the arithmetic helpers (00_scope.md R10 to R12). -/

namespace Sys2Proof.Machine

theorem clip3_bounds {lo hi : Int} (h : lo ≤ hi) (v : Int) : lo ≤ clip3 lo hi v ∧ clip3 lo hi v ≤ hi := by
  unfold clip3
  split
  · exact ⟨le_refl _, h⟩
  · split <;> omega

theorem clip3_of_mem {lo hi v : Int} (h1 : lo ≤ v) (h2 : v ≤ hi) : clip3 lo hi v = v := by
  unfold clip3
  rw [if_neg (by omega), if_neg (by omega)]

theorem clip1_bounds (v : Int) : 0 ≤ clip1 v ∧ clip1 v ≤ 255 := clip3_bounds (by decide) v

theorem clip3_le_abs {tc : Int} (h : 0 ≤ tc) (v : Int) : iabs (clip3 (-tc) tc v) ≤ tc := by
  have := clip3_bounds (lo := -tc) (hi := tc) (by omega) v
  unfold iabs
  split <;> omega

theorem sampleInt_bounds (b : Byte) : 0 ≤ sampleInt b ∧ sampleInt b ≤ 255 := by
  unfold sampleInt
  have := b.isLt
  omega

/-- Narrowing an integer of the sample range loses nothing. -/
theorem sampleInt_toSample {v : Int} (h1 : 0 ≤ v) (h2 : v ≤ 255) : sampleInt (toSample v) = v := by
  unfold sampleInt toSample
  rw [BitVec.toNat_ofInt]
  omega

@[simp] theorem toSample_sampleInt (b : Byte) : toSample (sampleInt b) = b := by
  unfold sampleInt toSample
  apply BitVec.eq_of_toNat_eq
  rw [BitVec.toNat_ofInt]
  have := b.isLt
  omega

theorem clipIndex_val (v : Int) : ((clipIndex v).val : Int) = clip3 0 51 v := by
  have := clip3_bounds (lo := 0) (hi := 51) (by decide) v
  unfold clipIndex
  rw [Fin.val_ofNat, Nat.mod_eq_of_lt (by omega)]
  omega

theorem asr_bounds {lo hi a : Int} {n : Nat} (h1 : lo * 2 ^ n ≤ a) (h2 : a < (hi + 1) * 2 ^ n) :
    lo ≤ asr a n ∧ asr a n ≤ hi := by
  unfold asr
  have hp : (0 : Int) < ((2 ^ n : Nat) : Int) := by positivity
  push_cast at hp ⊢
  constructor
  · exact (Int.le_ediv_iff_mul_le hp).2 h1
  · have := (Int.ediv_lt_iff_lt_mul hp).2 h2
    omega

end Sys2Proof.Machine
end

