-- ==== Sys2Proof/Laws/Block.lean ====
section
/-! SUPPORT. Blocks by row and column (00_scope.md R9). -/

namespace Sys2Proof.Machine

@[simp] theorem Block.at_make (f : Fin 4 → Fin 4 → Coef) (i j : Fin 4) : Block.at (Block.make f) i j = f i j := by
  unfold Block.at Block.make
  rw [Vector.getElem_ofFn]
  congr 1 <;> apply Fin.ext <;> simp only <;> omega

/-- Every entry of a block is the entry of its row and column. -/
theorem Block.getElem_eq_at (b : Block) (n : Fin 16) :
    b[n] = Block.at b ⟨n.val / 4, by omega⟩ ⟨n.val % 4, by omega⟩ := by
  unfold Block.at
  simp only [Fin.getElem_fin, Nat.div_add_mod]

/-- Two blocks with the same entries are the same block. -/
theorem Block.ext_at {a b : Block} (h : ∀ i j, Block.at a i j = Block.at b i j) : a = b := by
  apply Vector.ext
  intro n hn
  have ha := Block.getElem_eq_at a ⟨n, hn⟩
  have hb := Block.getElem_eq_at b ⟨n, hn⟩
  simp only [Fin.getElem_fin] at ha hb
  rw [ha, hb, h]

end Sys2Proof.Machine
end

