-- ==== Sys2Proof/Laws/Memory.lean ====
section
/-! SUPPORT. The laws of the sample memory: reads after writes, and the canonical form every write keeps. -/

namespace Sys2Proof.Machine

theorem Memory.wf_nil : Memory.wf [] := ⟨List.Pairwise.nil, by simp⟩

theorem Memory.wf_tail {p : Host.Cell} {m : List Host.Cell} (h : Memory.wf (p :: m)) : Memory.wf m :=
  ⟨h.1.of_cons, fun q hq => h.2 q (List.mem_cons_of_mem _ hq)⟩

/-- An address below every listed one is unlisted. -/
theorem Memory.read_of_lt {m : List Host.Cell} {a : Nat} (h : ∀ p ∈ m, a < p.1) : Memory.read m a = unlistedByte := by
  induction m with
  | nil => rfl
  | cons p rest ih =>
    obtain ⟨b, u⟩ := p
    have hb : a < b := h (b, u) List.mem_cons_self
    rw [Memory.read, if_neg (by omega)]
    exact ih fun q hq => h q (List.mem_cons_of_mem _ hq)

/-- The addresses a write can list. -/
theorem Memory.mem_write {m : List Host.Cell} {a : Nat} {v : Byte} {p : Host.Cell} (h : p ∈ Memory.write m a v) :
    p = (a, v) ∨ p ∈ m := by
  induction m with
  | nil =>
    rw [Memory.write] at h
    split at h <;> simp_all
  | cons q rest ih =>
    obtain ⟨b, u⟩ := q
    rw [Memory.write] at h
    split at h
    · split at h <;> simp_all
    · split at h
      · split at h
        · exact .inr (List.mem_cons_of_mem _ h)
        · rcases List.mem_cons.1 h with h | h
          · exact .inl h
          · exact .inr (List.mem_cons_of_mem _ h)
      · rcases List.mem_cons.1 h with h | h
        · exact .inr (h ▸ List.mem_cons_self)
        · rcases ih h with h | h
          · exact .inl h
          · exact .inr (List.mem_cons_of_mem _ h)

/-- A write keeps the canonical form. -/
theorem Memory.write_wf {m : List Host.Cell} (h : Memory.wf m) (a : Nat) (v : Byte) : Memory.wf (Memory.write m a v) := by
  induction m with
  | nil =>
    rw [Memory.write]
    split
    · exact Memory.wf_nil
    · exact ⟨List.pairwise_singleton _ _, by simpa using ‹_›⟩
  | cons q rest ih =>
    obtain ⟨b, u⟩ := q
    have ht := Memory.wf_tail h
    have hlt : ∀ p ∈ rest, b < p.1 := fun p hp => (List.pairwise_cons.1 h.1).1 p hp
    have hu : u ≠ unlistedByte := h.2 (b, u) List.mem_cons_self
    rw [Memory.write]
    split
    · split
      · exact h
      · refine ⟨List.pairwise_cons.2 ⟨?_, h.1⟩, ?_⟩
        · intro p hp
          rcases List.mem_cons.1 hp with rfl | hp
          · assumption
          · exact lt_trans ‹a < b› (hlt p hp)
        · intro p hp
          rcases List.mem_cons.1 hp with rfl | hp
          · assumption
          · exact h.2 p hp
    · split
      · rename_i hab
        subst hab
        split
        · exact ht
        · refine ⟨List.pairwise_cons.2 ⟨hlt, ht.1⟩, ?_⟩
          intro p hp
          rcases List.mem_cons.1 hp with rfl | hp
          · assumption
          · exact ht.2 p hp
      · have hr := ih ht
        refine ⟨List.pairwise_cons.2 ⟨?_, hr.1⟩, ?_⟩
        · intro p hp
          rcases Memory.mem_write hp with rfl | hp
          · simp only
            omega
          · exact hlt p hp
        · intro p hp
          rcases List.mem_cons.1 hp with rfl | hp
          · exact hu
          · exact hr.2 p hp

/-- Reading back what a write stored, in a memory in canonical form. -/
theorem Memory.read_write_same {m : List Host.Cell} (h : Memory.wf m) (a : Nat) (v : Byte) :
    Memory.read (Memory.write m a v) a = v := by
  induction m with
  | nil =>
    rw [Memory.write]
    split
    · subst v; rfl
    · simp [Memory.read]
  | cons q rest ih =>
    obtain ⟨b, u⟩ := q
    have hlt : ∀ p ∈ rest, b < p.1 := fun p hp => (List.pairwise_cons.1 h.1).1 p hp
    rw [Memory.write]
    split
    · split
      · subst v
        apply Memory.read_of_lt
        intro p hp
        rcases List.mem_cons.1 hp with rfl | hp
        · assumption
        · exact lt_trans ‹a < b› (hlt p hp)
      · simp [Memory.read]
    · split
      · rename_i hab
        subst hab
        split
        · subst v
          exact Memory.read_of_lt hlt
        · simp [Memory.read]
      · rw [Memory.read, if_neg ‹_›]
        exact ih (Memory.wf_tail h)

/-- A write leaves every other address as it read. -/
theorem Memory.read_write_ne (m : List Host.Cell) {a c : Nat} (v : Byte) (hne : c ≠ a) :
    Memory.read (Memory.write m a v) c = Memory.read m c := by
  induction m with
  | nil =>
    rw [Memory.write]
    split
    · rfl
    · simp [Memory.read, hne]
  | cons q rest ih =>
    obtain ⟨b, u⟩ := q
    rw [Memory.write]
    split
    · split
      · rfl
      · simp [Memory.read, hne]
    · split
      · rename_i hab
        subst hab
        split
        · simp [Memory.read, hne]
        · simp [Memory.read, hne]
      · simp only [Memory.read, ih]

@[simp] theorem State.memRead_memWrite_ne (s : State) {a c : Nat} (v : Byte) (hne : c ≠ a) :
    (s.memWrite a v).memRead c = s.memRead c := Memory.read_write_ne s.sm v hne

theorem State.memRead_memWrite_same {s : State} (h : Memory.wf s.sm) (a : Nat) (v : Byte) :
    (s.memWrite a v).memRead a = v := Memory.read_write_same h a v

end Sys2Proof.Machine
end

