-- ==== Sys2Proof/Laws/State.lean ====
section
/-! SUPPORT. What every update of the state leaves in every field, one lemma per field per update. -/

namespace Sys2Proof.Machine

@[simp] theorem State.withCoef_cfg (s : State) (b : Block) : (s.withCoef b).cfg = s.cfg := rfl
@[simp] theorem State.withCoef_coef (s : State) (b : Block) : (s.withCoef b).coef = b := rfl
@[simp] theorem State.withCoef_dc (s : State) (b : Block) : (s.withCoef b).dc = s.dc := rfl
@[simp] theorem State.withCoef_line (s : State) (b : Block) : (s.withCoef b).line = s.line := rfl
@[simp] theorem State.withCoef_pred (s : State) (b : Block) : (s.withCoef b).pred = s.pred := rfl
@[simp] theorem State.withCoef_regs (s : State) (b : Block) : (s.withCoef b).regs = s.regs := rfl
@[simp] theorem State.withCoef_cix (s : State) (b : Block) : (s.withCoef b).cix = s.cix := rfl
@[simp] theorem State.withCoef_status (s : State) (b : Block) : (s.withCoef b).status = s.status := rfl
@[simp] theorem State.withCoef_faultCause (s : State) (b : Block) : (s.withCoef b).faultCause = s.faultCause := rfl
@[simp] theorem State.withCoef_faultCmd (s : State) (b : Block) : (s.withCoef b).faultCmd = s.faultCmd := rfl
@[simp] theorem State.withCoef_faultCix (s : State) (b : Block) : (s.withCoef b).faultCix = s.faultCix := rfl
@[simp] theorem State.withCoef_queue (s : State) (b : Block) : (s.withCoef b).queue = s.queue := rfl
@[simp] theorem State.withCoef_waiting (s : State) (b : Block) : (s.withCoef b).waiting = s.waiting := rfl
@[simp] theorem State.withCoef_sm (s : State) (b : Block) : (s.withCoef b).sm = s.sm := rfl
@[simp] theorem State.withCoef_freeCtr (s : State) (b : Block) : (s.withCoef b).freeCtr = s.freeCtr := rfl

@[simp] theorem State.withDc_cfg (s : State) (b : Block) : (s.withDc b).cfg = s.cfg := rfl
@[simp] theorem State.withDc_coef (s : State) (b : Block) : (s.withDc b).coef = s.coef := rfl
@[simp] theorem State.withDc_dc (s : State) (b : Block) : (s.withDc b).dc = b := rfl
@[simp] theorem State.withDc_line (s : State) (b : Block) : (s.withDc b).line = s.line := rfl
@[simp] theorem State.withDc_pred (s : State) (b : Block) : (s.withDc b).pred = s.pred := rfl
@[simp] theorem State.withDc_regs (s : State) (b : Block) : (s.withDc b).regs = s.regs := rfl
@[simp] theorem State.withDc_cix (s : State) (b : Block) : (s.withDc b).cix = s.cix := rfl
@[simp] theorem State.withDc_status (s : State) (b : Block) : (s.withDc b).status = s.status := rfl
@[simp] theorem State.withDc_faultCause (s : State) (b : Block) : (s.withDc b).faultCause = s.faultCause := rfl
@[simp] theorem State.withDc_faultCmd (s : State) (b : Block) : (s.withDc b).faultCmd = s.faultCmd := rfl
@[simp] theorem State.withDc_faultCix (s : State) (b : Block) : (s.withDc b).faultCix = s.faultCix := rfl
@[simp] theorem State.withDc_queue (s : State) (b : Block) : (s.withDc b).queue = s.queue := rfl
@[simp] theorem State.withDc_waiting (s : State) (b : Block) : (s.withDc b).waiting = s.waiting := rfl
@[simp] theorem State.withDc_sm (s : State) (b : Block) : (s.withDc b).sm = s.sm := rfl
@[simp] theorem State.withDc_freeCtr (s : State) (b : Block) : (s.withDc b).freeCtr = s.freeCtr := rfl

@[simp] theorem State.withLine_cfg (s : State) (l : Line) : (s.withLine l).cfg = s.cfg := rfl
@[simp] theorem State.withLine_coef (s : State) (l : Line) : (s.withLine l).coef = s.coef := rfl
@[simp] theorem State.withLine_dc (s : State) (l : Line) : (s.withLine l).dc = s.dc := rfl
@[simp] theorem State.withLine_line (s : State) (l : Line) : (s.withLine l).line = l := rfl
@[simp] theorem State.withLine_pred (s : State) (l : Line) : (s.withLine l).pred = s.pred := rfl
@[simp] theorem State.withLine_regs (s : State) (l : Line) : (s.withLine l).regs = s.regs := rfl
@[simp] theorem State.withLine_cix (s : State) (l : Line) : (s.withLine l).cix = s.cix := rfl
@[simp] theorem State.withLine_status (s : State) (l : Line) : (s.withLine l).status = s.status := rfl
@[simp] theorem State.withLine_faultCause (s : State) (l : Line) : (s.withLine l).faultCause = s.faultCause := rfl
@[simp] theorem State.withLine_faultCmd (s : State) (l : Line) : (s.withLine l).faultCmd = s.faultCmd := rfl
@[simp] theorem State.withLine_faultCix (s : State) (l : Line) : (s.withLine l).faultCix = s.faultCix := rfl
@[simp] theorem State.withLine_queue (s : State) (l : Line) : (s.withLine l).queue = s.queue := rfl
@[simp] theorem State.withLine_waiting (s : State) (l : Line) : (s.withLine l).waiting = s.waiting := rfl
@[simp] theorem State.withLine_sm (s : State) (l : Line) : (s.withLine l).sm = s.sm := rfl
@[simp] theorem State.withLine_freeCtr (s : State) (l : Line) : (s.withLine l).freeCtr = s.freeCtr := rfl

@[simp] theorem State.withPred_cfg (s : State) (p : Pred) : (s.withPred p).cfg = s.cfg := rfl
@[simp] theorem State.withPred_coef (s : State) (p : Pred) : (s.withPred p).coef = s.coef := rfl
@[simp] theorem State.withPred_dc (s : State) (p : Pred) : (s.withPred p).dc = s.dc := rfl
@[simp] theorem State.withPred_line (s : State) (p : Pred) : (s.withPred p).line = s.line := rfl
@[simp] theorem State.withPred_pred (s : State) (p : Pred) : (s.withPred p).pred = p := rfl
@[simp] theorem State.withPred_regs (s : State) (p : Pred) : (s.withPred p).regs = s.regs := rfl
@[simp] theorem State.withPred_cix (s : State) (p : Pred) : (s.withPred p).cix = s.cix := rfl
@[simp] theorem State.withPred_status (s : State) (p : Pred) : (s.withPred p).status = s.status := rfl
@[simp] theorem State.withPred_faultCause (s : State) (p : Pred) : (s.withPred p).faultCause = s.faultCause := rfl
@[simp] theorem State.withPred_faultCmd (s : State) (p : Pred) : (s.withPred p).faultCmd = s.faultCmd := rfl
@[simp] theorem State.withPred_faultCix (s : State) (p : Pred) : (s.withPred p).faultCix = s.faultCix := rfl
@[simp] theorem State.withPred_queue (s : State) (p : Pred) : (s.withPred p).queue = s.queue := rfl
@[simp] theorem State.withPred_waiting (s : State) (p : Pred) : (s.withPred p).waiting = s.waiting := rfl
@[simp] theorem State.withPred_sm (s : State) (p : Pred) : (s.withPred p).sm = s.sm := rfl
@[simp] theorem State.withPred_freeCtr (s : State) (p : Pred) : (s.withPred p).freeCtr = s.freeCtr := rfl

@[simp] theorem State.withRegs_cfg (s : State) (g : CtrlRegs) : (s.withRegs g).cfg = s.cfg := rfl
@[simp] theorem State.withRegs_coef (s : State) (g : CtrlRegs) : (s.withRegs g).coef = s.coef := rfl
@[simp] theorem State.withRegs_dc (s : State) (g : CtrlRegs) : (s.withRegs g).dc = s.dc := rfl
@[simp] theorem State.withRegs_line (s : State) (g : CtrlRegs) : (s.withRegs g).line = s.line := rfl
@[simp] theorem State.withRegs_pred (s : State) (g : CtrlRegs) : (s.withRegs g).pred = s.pred := rfl
@[simp] theorem State.withRegs_regs (s : State) (g : CtrlRegs) : (s.withRegs g).regs = g := rfl
@[simp] theorem State.withRegs_cix (s : State) (g : CtrlRegs) : (s.withRegs g).cix = s.cix := rfl
@[simp] theorem State.withRegs_status (s : State) (g : CtrlRegs) : (s.withRegs g).status = s.status := rfl
@[simp] theorem State.withRegs_faultCause (s : State) (g : CtrlRegs) : (s.withRegs g).faultCause = s.faultCause := rfl
@[simp] theorem State.withRegs_faultCmd (s : State) (g : CtrlRegs) : (s.withRegs g).faultCmd = s.faultCmd := rfl
@[simp] theorem State.withRegs_faultCix (s : State) (g : CtrlRegs) : (s.withRegs g).faultCix = s.faultCix := rfl
@[simp] theorem State.withRegs_queue (s : State) (g : CtrlRegs) : (s.withRegs g).queue = s.queue := rfl
@[simp] theorem State.withRegs_waiting (s : State) (g : CtrlRegs) : (s.withRegs g).waiting = s.waiting := rfl
@[simp] theorem State.withRegs_sm (s : State) (g : CtrlRegs) : (s.withRegs g).sm = s.sm := rfl
@[simp] theorem State.withRegs_freeCtr (s : State) (g : CtrlRegs) : (s.withRegs g).freeCtr = s.freeCtr := rfl

@[simp] theorem State.withStatus_cfg (s : State) (st : Status) : (s.withStatus st).cfg = s.cfg := rfl
@[simp] theorem State.withStatus_coef (s : State) (st : Status) : (s.withStatus st).coef = s.coef := rfl
@[simp] theorem State.withStatus_dc (s : State) (st : Status) : (s.withStatus st).dc = s.dc := rfl
@[simp] theorem State.withStatus_line (s : State) (st : Status) : (s.withStatus st).line = s.line := rfl
@[simp] theorem State.withStatus_pred (s : State) (st : Status) : (s.withStatus st).pred = s.pred := rfl
@[simp] theorem State.withStatus_regs (s : State) (st : Status) : (s.withStatus st).regs = s.regs := rfl
@[simp] theorem State.withStatus_cix (s : State) (st : Status) : (s.withStatus st).cix = s.cix := rfl
@[simp] theorem State.withStatus_status (s : State) (st : Status) : (s.withStatus st).status = st := rfl
@[simp] theorem State.withStatus_faultCause (s : State) (st : Status) : (s.withStatus st).faultCause = s.faultCause := rfl
@[simp] theorem State.withStatus_faultCmd (s : State) (st : Status) : (s.withStatus st).faultCmd = s.faultCmd := rfl
@[simp] theorem State.withStatus_faultCix (s : State) (st : Status) : (s.withStatus st).faultCix = s.faultCix := rfl
@[simp] theorem State.withStatus_queue (s : State) (st : Status) : (s.withStatus st).queue = s.queue := rfl
@[simp] theorem State.withStatus_waiting (s : State) (st : Status) : (s.withStatus st).waiting = s.waiting := rfl
@[simp] theorem State.withStatus_sm (s : State) (st : Status) : (s.withStatus st).sm = s.sm := rfl
@[simp] theorem State.withStatus_freeCtr (s : State) (st : Status) : (s.withStatus st).freeCtr = s.freeCtr := rfl

@[simp] theorem State.memWrite_cfg (s : State) (a : Nat) (v : Byte) : (s.memWrite a v).cfg = s.cfg := rfl
@[simp] theorem State.memWrite_coef (s : State) (a : Nat) (v : Byte) : (s.memWrite a v).coef = s.coef := rfl
@[simp] theorem State.memWrite_dc (s : State) (a : Nat) (v : Byte) : (s.memWrite a v).dc = s.dc := rfl
@[simp] theorem State.memWrite_line (s : State) (a : Nat) (v : Byte) : (s.memWrite a v).line = s.line := rfl
@[simp] theorem State.memWrite_pred (s : State) (a : Nat) (v : Byte) : (s.memWrite a v).pred = s.pred := rfl
@[simp] theorem State.memWrite_regs (s : State) (a : Nat) (v : Byte) : (s.memWrite a v).regs = s.regs := rfl
@[simp] theorem State.memWrite_cix (s : State) (a : Nat) (v : Byte) : (s.memWrite a v).cix = s.cix := rfl
@[simp] theorem State.memWrite_status (s : State) (a : Nat) (v : Byte) : (s.memWrite a v).status = s.status := rfl
@[simp] theorem State.memWrite_faultCause (s : State) (a : Nat) (v : Byte) : (s.memWrite a v).faultCause = s.faultCause := rfl
@[simp] theorem State.memWrite_faultCmd (s : State) (a : Nat) (v : Byte) : (s.memWrite a v).faultCmd = s.faultCmd := rfl
@[simp] theorem State.memWrite_faultCix (s : State) (a : Nat) (v : Byte) : (s.memWrite a v).faultCix = s.faultCix := rfl
@[simp] theorem State.memWrite_queue (s : State) (a : Nat) (v : Byte) : (s.memWrite a v).queue = s.queue := rfl
@[simp] theorem State.memWrite_waiting (s : State) (a : Nat) (v : Byte) : (s.memWrite a v).waiting = s.waiting := rfl
@[simp] theorem State.memWrite_sm (s : State) (a : Nat) (v : Byte) : (s.memWrite a v).sm = Memory.write s.sm a v := rfl
@[simp] theorem State.memWrite_freeCtr (s : State) (a : Nat) (v : Byte) : (s.memWrite a v).freeCtr = s.freeCtr := rfl

@[simp] theorem State.complete_cfg (s : State) : s.complete.cfg = s.cfg := rfl
@[simp] theorem State.complete_coef (s : State) : s.complete.coef = s.coef := rfl
@[simp] theorem State.complete_dc (s : State) : s.complete.dc = s.dc := rfl
@[simp] theorem State.complete_line (s : State) : s.complete.line = s.line := rfl
@[simp] theorem State.complete_pred (s : State) : s.complete.pred = s.pred := rfl
@[simp] theorem State.complete_regs (s : State) : s.complete.regs = s.regs := rfl
@[simp] theorem State.complete_cix (s : State) : s.complete.cix = s.cix + 1 := rfl
@[simp] theorem State.complete_status (s : State) : s.complete.status = s.status := rfl
@[simp] theorem State.complete_faultCause (s : State) : s.complete.faultCause = s.faultCause := rfl
@[simp] theorem State.complete_faultCmd (s : State) : s.complete.faultCmd = s.faultCmd := rfl
@[simp] theorem State.complete_faultCix (s : State) : s.complete.faultCix = s.faultCix := rfl
@[simp] theorem State.complete_queue (s : State) : s.complete.queue = s.queue := rfl
@[simp] theorem State.complete_waiting (s : State) : s.complete.waiting = s.waiting := rfl
@[simp] theorem State.complete_sm (s : State) : s.complete.sm = s.sm := rfl
@[simp] theorem State.complete_freeCtr (s : State) : s.complete.freeCtr = s.freeCtr := rfl

@[simp] theorem State.enterFault_cfg (s : State) (c : FaultCause) (w : Word) : (s.enterFault c w).cfg = s.cfg := rfl
@[simp] theorem State.enterFault_coef (s : State) (c : FaultCause) (w : Word) : (s.enterFault c w).coef = s.coef := rfl
@[simp] theorem State.enterFault_dc (s : State) (c : FaultCause) (w : Word) : (s.enterFault c w).dc = s.dc := rfl
@[simp] theorem State.enterFault_line (s : State) (c : FaultCause) (w : Word) : (s.enterFault c w).line = s.line := rfl
@[simp] theorem State.enterFault_pred (s : State) (c : FaultCause) (w : Word) : (s.enterFault c w).pred = s.pred := rfl
@[simp] theorem State.enterFault_regs (s : State) (c : FaultCause) (w : Word) : (s.enterFault c w).regs = s.regs := rfl
@[simp] theorem State.enterFault_cix (s : State) (c : FaultCause) (w : Word) : (s.enterFault c w).cix = s.cix := rfl
@[simp] theorem State.enterFault_status (s : State) (c : FaultCause) (w : Word) : (s.enterFault c w).status = .fault := rfl
@[simp] theorem State.enterFault_faultCause (s : State) (c : FaultCause) (w : Word) : (s.enterFault c w).faultCause = c := rfl
@[simp] theorem State.enterFault_faultCmd (s : State) (c : FaultCause) (w : Word) : (s.enterFault c w).faultCmd = w := rfl
@[simp] theorem State.enterFault_faultCix (s : State) (c : FaultCause) (w : Word) : (s.enterFault c w).faultCix = s.cix := rfl
@[simp] theorem State.enterFault_queue (s : State) (c : FaultCause) (w : Word) : (s.enterFault c w).queue = s.queue := rfl
@[simp] theorem State.enterFault_waiting (s : State) (c : FaultCause) (w : Word) : (s.enterFault c w).waiting = s.waiting := rfl
@[simp] theorem State.enterFault_sm (s : State) (c : FaultCause) (w : Word) : (s.enterFault c w).sm = s.sm := rfl
@[simp] theorem State.enterFault_freeCtr (s : State) (c : FaultCause) (w : Word) : (s.enterFault c w).freeCtr = s.freeCtr := rfl

@[simp] theorem State.putNextWord_cfg (s : State) (w : Word) : (s.putNextWord w).cfg = s.cfg := rfl
@[simp] theorem State.putNextWord_coef (s : State) (w : Word) : (s.putNextWord w).coef = s.coef := rfl
@[simp] theorem State.putNextWord_dc (s : State) (w : Word) : (s.putNextWord w).dc = s.dc := rfl
@[simp] theorem State.putNextWord_line (s : State) (w : Word) : (s.putNextWord w).line = s.line := rfl
@[simp] theorem State.putNextWord_pred (s : State) (w : Word) : (s.putNextWord w).pred = s.pred := rfl
@[simp] theorem State.putNextWord_regs (s : State) (w : Word) : (s.putNextWord w).regs = s.regs := rfl
@[simp] theorem State.putNextWord_cix (s : State) (w : Word) : (s.putNextWord w).cix = s.cix := rfl
@[simp] theorem State.putNextWord_status (s : State) (w : Word) : (s.putNextWord w).status = .run := rfl
@[simp] theorem State.putNextWord_faultCause (s : State) (w : Word) : (s.putNextWord w).faultCause = s.faultCause := rfl
@[simp] theorem State.putNextWord_faultCmd (s : State) (w : Word) : (s.putNextWord w).faultCmd = s.faultCmd := rfl
@[simp] theorem State.putNextWord_faultCix (s : State) (w : Word) : (s.putNextWord w).faultCix = s.faultCix := rfl
@[simp] theorem State.putNextWord_queue (s : State) (w : Word) : (s.putNextWord w).queue = w :: s.queue.tail := rfl
@[simp] theorem State.putNextWord_waiting (s : State) (w : Word) : (s.putNextWord w).waiting = s.waiting := rfl
@[simp] theorem State.putNextWord_sm (s : State) (w : Word) : (s.putNextWord w).sm = s.sm := rfl
@[simp] theorem State.putNextWord_freeCtr (s : State) (w : Word) : (s.putNextWord w).freeCtr = s.freeCtr := rfl

@[simp] theorem State.softReset_cfg (s : State) : s.softReset.cfg = s.cfg := rfl
@[simp] theorem State.softReset_regs (s : State) : s.softReset.regs = CtrlRegs.zero := rfl
@[simp] theorem State.softReset_cix (s : State) : s.softReset.cix = 0 := rfl
@[simp] theorem State.softReset_status (s : State) : s.softReset.status = .run := rfl
@[simp] theorem State.softReset_faultCause (s : State) : s.softReset.faultCause = .none := rfl
@[simp] theorem State.softReset_faultCmd (s : State) : s.softReset.faultCmd = 0 := rfl
@[simp] theorem State.softReset_faultCix (s : State) : s.softReset.faultCix = 0 := rfl
@[simp] theorem State.softReset_queue (s : State) : s.softReset.queue = [] := rfl
@[simp] theorem State.softReset_waiting (s : State) : s.softReset.waiting = s.waiting := rfl
@[simp] theorem State.softReset_sm (s : State) : s.softReset.sm = s.sm := rfl
@[simp] theorem State.softReset_freeCtr (s : State) : s.softReset.freeCtr = s.freeCtr + 1 := rfl

end Sys2Proof.Machine
end

