-- ==== Sys2Proof/Laws/Ops.lean ====
section
/-! SUPPORT. What each shared operation can do, said once. -/

namespace Sys2Proof.Machine

/-- A raised fault has one next state, the fault state. -/
theorem raise_eq_next {c : FaultCause} {i : Instr} {s t : State} (h : raise c i s = .next t) :
    t = s.enterFault c (encode i) := by
  simpa [raise] using h.symm

theorem fetch_eq_some {s : State} {w : Word} {rest : List Word} (h1 : s.status = .run) (h2 : s.queue = w :: rest) :
    fetch s = some (w, { s with queue := rest }) := by
  simp [fetch, h1, h2]

theorem fetch_eq_none {s : State} (h : s.status ≠ .run ∨ s.queue = []) : fetch s = none := by
  unfold fetch
  split
  · simp_all
  · rfl

/-- Taking a word: the sequencer was enabled, and the word is gone from the queue. -/
theorem fetch_some_cases {s s' : State} {w : Word} (h : fetch s = some (w, s')) :
    s.status = .run ∧ ∃ rest, s.queue = w :: rest ∧ s' = { s with queue := rest } := by
  unfold fetch at h
  split at h
  · rename_i w' rest h1 h2
    simp only [Option.some.injEq, Prod.mk.injEq] at h
    exact ⟨h1, rest, by rw [h2, h.1], h.2.symm⟩
  · cases h

/-- Every number of a control register names it. -/
@[simp] theorem cregOfNum_cregNum (r : CReg) : cregOfNum (cregNum r) = some r := by cases r <;> rfl

/-- A number names at most one control register. -/
theorem cregNum_of_cregOfNum {n : Nat} {r : CReg} (h : cregOfNum n = some r) : cregNum r = n := by
  unfold cregOfNum at h
  split at h <;> simp_all only [Option.some.injEq, reduceCtorEq] <;> subst h <;> rfl

/-- Numbers above 0x19 name no control register (10_state.md R26). -/
theorem cregOfNum_eq_none_iff (n : Nat) : cregOfNum n = none ↔ 0x19 < n := by
  constructor
  · intro h
    by_contra hn
    have : n ≤ 0x19 := by omega
    interval_cases n <;> simp [cregOfNum] at h
  · intro h
    match hm : cregOfNum n with
    | none => rfl
    | some r =>
      have := cregNum_of_cregOfNum hm
      have hr : cregNum r ≤ 0x19 := by cases r <;> decide
      omega

/-- Writes of bytes in a row change the sample memory and nothing else. -/
theorem foldl_memWrite_eq {α : Type} (addr : α → Nat) (val : α → Byte) (ks : List α) (s : State) :
    ks.foldl (fun t k => t.memWrite (addr k) (val k)) s =
      { s with sm := ks.foldl (fun m k => Memory.write m (addr k) (val k)) s.sm } := by
  induction ks generalizing s with
  | nil => rfl
  | cons k rest ih =>
    simp only [List.foldl_cons]
    rw [ih]
    rfl

/-- Storing a line writes the sample memory and nothing else. -/
theorem storeLine_eq (dir : Bool) (s : State) :
    storeLine dir s = { s with
      sm := List.foldl (fun m (k : Fin 8) => Memory.write m (lineAddr dir s.regs k.val) s.line[k]) s.sm
        [1, 2, 3, 4, 5, 6] } :=
  foldl_memWrite_eq _ _ _ s

/-- A line store keeps the canonical form of the sample memory. -/
theorem storeLine_wf {s : State} (h : Memory.wf s.sm) (dir : Bool) : Memory.wf (storeLine dir s).sm := by
  simp only [storeLine, List.foldl_cons, List.foldl_nil, State.memWrite_sm]
  exact Memory.write_wf (Memory.write_wf (Memory.write_wf (Memory.write_wf (Memory.write_wf
    (Memory.write_wf h _ _) _ _) _ _) _ _) _ _) _ _

/-- Where a line store lists a byte: an address of the line or one listed before. -/
theorem storeLine_mem {dir : Bool} {s : State} {p : Host.Cell} (h : p ∈ (storeLine dir s).sm) :
    p ∈ s.sm ∨ ∃ k, 1 ≤ k ∧ k ≤ 6 ∧ p.1 = lineAddr dir s.regs k := by
  simp only [storeLine, List.foldl_cons, List.foldl_nil, State.memWrite_sm] at h
  rcases Memory.mem_write h with h | h
  · exact .inr ⟨6, by omega, by omega, by rw [h]; rfl⟩
  rcases Memory.mem_write h with h | h
  · exact .inr ⟨5, by omega, by omega, by rw [h]; rfl⟩
  rcases Memory.mem_write h with h | h
  · exact .inr ⟨4, by omega, by omega, by rw [h]; rfl⟩
  rcases Memory.mem_write h with h | h
  · exact .inr ⟨3, by omega, by omega, by rw [h]; rfl⟩
  rcases Memory.mem_write h with h | h
  · exact .inr ⟨2, by omega, by omega, by rw [h]; rfl⟩
  rcases Memory.mem_write h with h | h
  · exact .inr ⟨1, by omega, by omega, by rw [h]; rfl⟩
  exact .inl h

/-- A host-port read changes nothing but the model's draw counter. -/
theorem portRead_state (idx : Nat) (s : State) : (portRead idx s).2 = s ∨
    (portRead idx s).2 = { s with freeCtr := s.freeCtr + 1 } := by
  unfold portRead
  split
  · exact .inr rfl
  · exact .inl rfl

/-- A push completes at once, with room and none waiting before it, or its word waits behind the others. -/
theorem push_cases (w : Word) (s : State) :
    (s.waiting = [] ∧ s.queue.length < s.cfg.cmdqDepth ∧ push w s = { s with queue := s.queue ++ [w] }) ∨
    (¬(s.waiting = [] ∧ s.queue.length < s.cfg.cmdqDepth) ∧ push w s = { s with waiting := s.waiting ++ [w] }) := by
  unfold push
  split
  · exact .inl ⟨(‹_ ∧ _›).1, (‹_ ∧ _›).2, rfl⟩
  · exact .inr ⟨‹_›, rfl⟩

/-- A waiting push completes by moving its word to the end of a queue with room, or nothing changes. -/
theorem completePush_cases (s : State) :
    (∃ w rest, s.waiting = w :: rest ∧ s.queue.length < s.cfg.cmdqDepth ∧
      completePush s = { s with queue := s.queue ++ [w], waiting := rest }) ∨
    ((s.waiting = [] ∨ s.cfg.cmdqDepth ≤ s.queue.length) ∧ completePush s = s) := by
  unfold completePush
  split
  · rename_i w rest h
    split
    · exact .inl ⟨w, rest, h, ‹_›, rfl⟩
    · exact .inr ⟨.inr (by omega), rfl⟩
  · exact .inr ⟨.inl ‹_›, rfl⟩

/-- A host access to the sample memory that completes: the block is quiescent and the byte exists. -/
theorem guardSm_cases {a : Nat} {s n t : State} (h : guardSm a s n = .next t) :
    s.quiescent = true ∧ a < s.cfg.smSize ∧ t = n := by
  unfold guardSm at h
  split at h
  · cases h
  · split at h
    · exact ⟨by simpa using ‹¬s.quiescent = false›, ‹_›, by simpa using h.symm⟩
    · cases h

/-- A byte of a free memory exists and differs from what an unlisted byte reads as. -/
theorem freeSm_mem {draw n : Nat} {p : Host.Cell} (h : p ∈ freeSm draw n) : p.1 < n ∧ p.2 ≠ unlistedByte := by
  unfold freeSm at h
  rw [List.mem_filterMap] at h
  obtain ⟨a, ha, hp⟩ := h
  split at hp
  · cases hp
  · cases hp
    exact ⟨List.mem_range.1 ha, ‹_›⟩

/-- A free memory is in canonical form. -/
theorem freeSm_wf (draw n : Nat) : Memory.wf (freeSm draw n) := by
  refine ⟨?_, fun p hp => (freeSm_mem hp).2⟩
  unfold freeSm
  refine List.Pairwise.filterMap _ ?_ (List.pairwise_lt_range (n := n))
  intro a b hab p hp q hq
  split at hp <;> cases hp
  split at hq <;> cases hq
  exact hab

/-- A soft reset leaves the sample memory and the configuration and empties the queue (70_reset_and_hazards.md R250). -/
theorem State.softReset_keeps (s : State) : s.softReset.sm = s.sm ∧ s.softReset.cfg = s.cfg ∧ s.softReset.queue = [] :=
  ⟨rfl, rfl, rfl⟩

end Sys2Proof.Machine
end

