-- ==== Sys2Proof/Laws/Checks.lean ====
section
/-! SUPPORT. What the checks of the commands decide, said once: the geometry of a plane, the position of a line, the block
sizes, and the legality checks of WRL, WRH and CQP against WellFormed. -/

namespace Sys2Proof.Machine

/-- `PlaneOK` (20_memory.md R72). -/
theorem planeOk_iff (p : Plane) (n : Nat) : planeOk p n = true ↔
    1 ≤ p.width ∧ 1 ≤ p.height ∧ p.width ≤ p.stride ∧ p.base + (p.height - 1) * p.stride + p.width ≤ n := by
  unfold planeOk
  simp only [Bool.and_eq_true, decide_eq_true_eq, ge_iff_le, and_assoc]

/-- A line along a row (44_deblock.md R199). -/
theorem lineInside_row_iff (g : CtrlRegs) : lineInside false g = true ↔
    4 ≤ g.dbX.toNat ∧ g.dbX.toNat + 4 ≤ g.curW.toNat ∧ g.dbY.toNat < g.curH.toNat := by
  simp only [lineInside, Bool.false_eq_true, if_false, Bool.not_eq_true', Bool.or_eq_false_iff, decide_eq_false_iff_not]
  omega

/-- A line down a column (44_deblock.md R199). -/
theorem lineInside_column_iff (g : CtrlRegs) : lineInside true g = true ↔
    4 ≤ g.dbY.toNat ∧ g.dbY.toNat + 4 ≤ g.curH.toNat ∧ g.dbX.toNat < g.curW.toNat := by
  simp only [lineInside, if_true, Bool.not_eq_true', Bool.or_eq_false_iff, decide_eq_false_iff_not]
  omega

/-- The size codes that name a listed shape are the same for MCL and MCC (43_interp.md R179). -/
theorem shape_mem_iff {hc wc : BitVec 2} (hh : hc ≠ 3) (hw : wc ≠ 3) :
    (sideLength 4 wc, sideLength 4 hc) ∈ lumaShapes ↔ (sideLength 2 wc, sideLength 2 hc) ∈ chromaShapes := by
  revert hc wc
  decide

/-- WRL writes exactly where WellFormed allows it, whatever the registers hold (40_control_data.md R112). -/
theorem writeLow_isSome (idx : BitVec 8) (imm : BitVec 16) (g : CtrlRegs) :
    ((cregOfNum idx.toNat).bind fun r => g.writeLow r imm).isSome = wrlAllowed idx imm := by
  unfold wrlAllowed
  generalize hn : idx.toNat = n
  by_cases h : n ≤ 0x19
  · clear hn
    interval_cases n <;> simp only [cregOfNum, CtrlRegs.writeLow, Option.bind_some, infoNz] <;>
      first
      | rfl
      | (rw [Bool.eq_iff_iff]
         split_ifs <;> simp_all <;> omega)
      | (rw [Bool.eq_iff_iff]
         split_ifs with h <;> simp_all
         intro h7
         simpa [h7] using h)
  · rw [(cregOfNum_eq_none_iff n).mpr (by omega)]
    split <;> simp_all

/-- WRH writes exactly where WellFormed allows it (40_control_data.md R113). -/
theorem writeHigh_isSome (idx : BitVec 8) (imm : BitVec 16) (g : CtrlRegs) :
    ((cregOfNum idx.toNat).bind fun r => g.writeHigh r imm).isSome = wrhAllowed idx := by
  unfold wrhAllowed
  generalize idx.toNat = n
  by_cases h : n ≤ 0x19
  · interval_cases n <;> rfl
  · rw [(cregOfNum_eq_none_iff n).mpr (by omega)]
    simp only [Option.bind_none, Option.isSome_none, List.contains_eq_mem, List.mem_cons, List.not_mem_nil, or_false]
    symm
    rw [decide_eq_false_iff_not]
    omega

/-- CQP writes exactly where neither field is 3 (42_dequant.md R154). -/
theorem cqp_isSome (src dst : BitVec 2) (f : BitVec 6 → BitVec 6) (g : CtrlRegs) :
    ((cqpSource src g).bind fun q => cqpStore dst (f q) g).isSome = (src != 3 && dst != 3) := by
  have hs : src = 0 ∨ src = 1 ∨ src = 2 ∨ src = 3 := by revert src; decide
  have hd : dst = 0 ∨ dst = 1 ∨ dst = 2 ∨ dst = 3 := by revert dst; decide
  rcases hs with rfl | rfl | rfl | rfl <;> rcases hd with rfl | rfl | rfl | rfl <;> rfl

end Sys2Proof.Machine
end

