-- ==== Sys2Proof/Laws/PerInstr.lean ====
section
/-! SUPPORT. One statement about every command as syntax: the opcode byte of its word is the byte its row of the opcode
map gives it (30_encoding.md R90, R96). -/

namespace Sys2Proof.Laws.OpcodeByte

/-- The opcode byte of a command's row (30_encoding.md R96). -/
def opcode : Instr → BitVec 8
  | .nop => 0x00
  | .endCmd => 0x01
  | .wrl _ _ => 0x02
  | .wrh _ _ => 0x03
  | .setc _ _ => 0x04
  | .clrc => 0x05
  | .sets _ _ => 0x06
  | .zigzag => 0x10
  | .idct4 => 0x11
  | .ihad4 => 0x12
  | .ihad2 => 0x13
  | .mvdc => 0x14
  | .mrgdc _ => 0x15
  | .idct8 _ => 0x18
  | .qpadd _ => 0x20
  | .cqp _ _ _ => 0x21
  | .dqac _ _ => 0x22
  | .dqdcl => 0x23
  | .dqdcc => 0x24
  | .mcl _ _ => 0x30
  | .mcc _ _ => 0x31
  | .mcbi _ => 0x38
  | .bs _ => 0x40
  | .dbl _ => 0x41
  | .ldln _ => 0x42
  | .stln _ => 0x43

/-- The word of the command carries its opcode in bits [31:24]. -/
def Statement (i : Instr) : Prop := opcodeOf (encode i) = opcode i

theorem nop : Statement (.nop) := rfl

theorem endCmd : Statement (.endCmd) := rfl

theorem wrl (idx imm) : Statement (.wrl idx imm) := by
  apply BitVec.eq_of_getLsbD_eq
  intro i hi
  interval_cases i <;> simp [encode, opcode, opcodeOf, field]

theorem wrh (idx imm) : Statement (.wrh idx imm) := by
  apply BitVec.eq_of_getLsbD_eq
  intro i hi
  interval_cases i <;> simp [encode, opcode, opcodeOf, field]

theorem setc (n imm) : Statement (.setc n imm) := by
  apply BitVec.eq_of_getLsbD_eq
  intro i hi
  interval_cases i <;> simp [encode, opcode, opcodeOf, field]

theorem clrc : Statement (.clrc) := rfl

theorem sets (n imm) : Statement (.sets n imm) := by
  apply BitVec.eq_of_getLsbD_eq
  intro i hi
  interval_cases i <;> simp [encode, opcode, opcodeOf, field]

theorem zigzag : Statement (.zigzag) := rfl

theorem idct4 : Statement (.idct4) := rfl

theorem ihad4 : Statement (.ihad4) := rfl

theorem ihad2 : Statement (.ihad2) := rfl

theorem mvdc : Statement (.mvdc) := rfl

theorem mrgdc (k) : Statement (.mrgdc k) := by
  apply BitVec.eq_of_getLsbD_eq
  intro i hi
  interval_cases i <;> simp [encode, opcode, opcodeOf, field]

theorem idct8 (x) : Statement (.idct8 x) := by
  apply BitVec.eq_of_getLsbD_eq
  intro i hi
  interval_cases i <;> simp [encode, opcode, opcodeOf, field]

theorem qpadd (d) : Statement (.qpadd d) := by
  apply BitVec.eq_of_getLsbD_eq
  intro i hi
  interval_cases i <;> simp [encode, opcode, opcodeOf, field]

theorem cqp (src dst plane) : Statement (.cqp src dst plane) := by
  apply BitVec.eq_of_getLsbD_eq
  intro i hi
  interval_cases i <;> simp [encode, opcode, opcodeOf, field, flag]

theorem dqac (skipdc qsel) : Statement (.dqac skipdc qsel) := by
  apply BitVec.eq_of_getLsbD_eq
  intro i hi
  interval_cases i <;> simp [encode, opcode, opcodeOf, field, flag]

theorem dqdcl : Statement (.dqdcl) := rfl

theorem dqdcc : Statement (.dqdcc) := rfl

theorem mcl (hc wc) : Statement (.mcl hc wc) := by
  apply BitVec.eq_of_getLsbD_eq
  intro i hi
  interval_cases i <;> simp [encode, opcode, opcodeOf, field]

theorem mcc (hc wc) : Statement (.mcc hc wc) := by
  apply BitVec.eq_of_getLsbD_eq
  intro i hi
  interval_cases i <;> simp [encode, opcode, opcodeOf, field]

theorem mcbi (x) : Statement (.mcbi x) := by
  apply BitVec.eq_of_getLsbD_eq
  intro i hi
  interval_cases i <;> simp [encode, opcode, opcodeOf, field]

theorem bs (e) : Statement (.bs e) := by
  apply BitVec.eq_of_getLsbD_eq
  intro i hi
  interval_cases i <;> simp [encode, opcode, opcodeOf, field, flag]

theorem dbl (c) : Statement (.dbl c) := by
  apply BitVec.eq_of_getLsbD_eq
  intro i hi
  interval_cases i <;> simp [encode, opcode, opcodeOf, field, flag]

theorem ldln (dir) : Statement (.ldln dir) := by
  apply BitVec.eq_of_getLsbD_eq
  intro i hi
  interval_cases i <;> simp [encode, opcode, opcodeOf, field, flag]

theorem stln (dir) : Statement (.stln dir) := by
  apply BitVec.eq_of_getLsbD_eq
  intro i hi
  interval_cases i <;> simp [encode, opcode, opcodeOf, field, flag]

end Sys2Proof.Laws.OpcodeByte
end

