-- ==== Sys2Proof/Tests/Slice0.lean ====
section
/-! SUPPORT. The model's own tests: a word of every command, written out from 30_encoding.md R91 to R100; an ill-formed
command for each check of WellFormed; the effects of single steps on the vectors of 95_test_vectors.md; and for each
statement with hypotheses a state and operands that meet them together. -/

namespace Sys2Proof.Tests

open Sys2Proof Sys2Proof.Machine Sys2Proof.Claims

/-! ### Helpers -/

/-- The state one step after `w` became the next word. -/
def after (w : Word) (s : State) : Option State :=
  match step (s.putNextWord w) with
  | .next t => some t
  | .fault _ => none
  | .refused _ => none

/-- A state whose control registers are `g`. -/
def withG (g : CtrlRegs) : State := State.reset.withRegs g

/-- A state whose coefficients are the given numbers, then zeros. -/
def withC (s : State) (l : List Int) : State := s.withCoef (Vector.ofFn fun i => BitVec.ofInt 32 (l.getD i.val 0))

/-- A state whose line is the given numbers. -/
def withS (s : State) (l : List Nat) : State := s.withLine (Vector.ofFn fun i => BitVec.ofNat 8 (l.getD i.val 0))

/-- The reset state with `n` NOPs in its queue and the pushes `l` waiting. -/
def holding (n : Nat) (l : List Word) : State := { State.reset with queue := List.replicate n 0, waiting := l }

/-- The first coefficients as integers. -/
def coefs (n : Nat) (s : State) : List Int := (s.coef.toList.take n).map BitVec.toInt

/-- The line as numbers. -/
def samples (s : State) : List Nat := s.line.toList.map BitVec.toNat

/-- The block is in FAULT with this cause, word and position. -/
def faultedWith (c : FaultCause) (w : Word) (s : State) : Bool :=
  s.status == .fault && s.faultCause == c && s.faultCmd == w && s.faultCix == s.cix

/-- A 4x4 reference plane and an 8x8 current plane that end with the sample memory, a line position that fits in both
directions, and QPs that filter. -/
def planes : CtrlRegs :=
  { CtrlRegs.zero with
    refBase := 4080, refStride := 4, refW := 4, refH := 4, refValid := 1,
    curBase := 4032, curStride := 8, curW := 8, curH := 8, dbX := 4, dbY := 4, dbQpp := 30, dbQpq := 30, dbBs := 2 }

/-! ### Decoding: one word of every command, from the formats and the table of R100 -/

theorem test_decode_nop : decode 0x00000000 = .ok .nop := by decide
theorem test_decode_end : decode 0x01000000 = .ok .endCmd := by decide
theorem test_decode_wrl : decode 0x0200001E = .ok (.wrl 0x00 30) := by decide
theorem test_decode_wrh : decode 0x030FFFFF = .ok (.wrh 0x0F 0xFFFF) := by decide
theorem test_decode_setc : decode 0x0401FFFD = .ok (.setc 1 0xFFFD) := by decide
theorem test_decode_clrc : decode 0x05000000 = .ok .clrc := by decide
theorem test_decode_sets : decode 0x06030042 = .ok (.sets 3 66) := by decide
theorem test_decode_zigzag : decode 0x10000000 = .ok .zigzag := by decide
theorem test_decode_idct4 : decode 0x11000000 = .ok .idct4 := by decide
theorem test_decode_ihad4 : decode 0x12000000 = .ok .ihad4 := by decide
theorem test_decode_ihad2 : decode 0x13000000 = .ok .ihad2 := by decide
theorem test_decode_mvdc : decode 0x14000000 = .ok .mvdc := by decide
theorem test_decode_mrgdc : decode 0x15000005 = .ok (.mrgdc 5) := by decide
theorem test_decode_idct8 : decode 0x18123456 = .ok (.idct8 0x123456) := by decide
theorem test_decode_qpadd : decode 0x200000FE = .ok (.qpadd 0xFE) := by decide
/-- R93: `src` in f[4:3], `dst` in f[2:1], `plane` in f[0]. -/
theorem test_decode_cqp : decode 0x21000013 = .ok (.cqp 2 1 true) := by decide
theorem test_decode_dqac : decode 0x22000002 = .ok (.dqac true false) := by decide
theorem test_decode_dqdcl : decode 0x23000000 = .ok .dqdcl := by decide
theorem test_decode_dqdcc : decode 0x24000000 = .ok .dqdcc := by decide
theorem test_decode_mcl : decode 0x30000001 = .ok (.mcl 0 1) := by decide
theorem test_decode_mcc : decode 0x31000006 = .ok (.mcc 1 2) := by decide
theorem test_decode_mcbi : decode 0x38ABCDEF = .ok (.mcbi 0xABCDEF) := by decide
theorem test_decode_bs : decode 0x40000001 = .ok (.bs true) := by decide
theorem test_decode_dbl : decode 0x41000001 = .ok (.dbl true) := by decide
theorem test_decode_ldln : decode 0x42000001 = .ok (.ldln true) := by decide
theorem test_decode_stln : decode 0x43000000 = .ok (.stln false) := by decide
/-- R97: an opcode outside the table, and must-be-zero bits set. -/
theorem test_decode_refuses : decode 0x07000000 = .error .undefinedOpcode ∧ decode 0x01800000 = .error .reservedBitSet ∧
    decode 0x06080000 = .error .reservedBitSet ∧ decode 0x06000100 = .error .reservedBitSet := by decide
/-- R102: the word as bytes. -/
theorem test_bytes : wordBytes 0x0200001E = [0x1E, 0, 0, 2] ∧
    decodeBytes [0x1E, 0, 0, 2, 7] = .ok (.wrl 0 30, [7]) := by decide
theorem test_decodeTableWord : decodeTableWord 32 0x22000002 = some (.dqac true false) := by decide

/-! ### WellFormed: an ill-formed command for each check (60_exceptions.md R221) -/

theorem test_illFormed_qp : ∀ n ∈ ([0, 3, 6, 7] : List (BitVec 8)), (Instr.wrl n 52).wellFormed = false := by decide
theorem test_illFormed_cqpo : ∀ n ∈ ([1, 2] : List (BitVec 8)),
    (Instr.wrl n 13).wellFormed = false ∧ (Instr.wrl n 0xFFF3).wellFormed = false := by decide
theorem test_illFormed_off : ∀ n ∈ ([4, 5] : List (BitVec 8)),
    (Instr.wrl n 7).wellFormed = false ∧ (Instr.wrl n 0xFFF9).wellFormed = false := by decide
theorem test_illFormed_bs : (Instr.wrl 8 5).wellFormed = false := by decide
theorem test_illFormed_info : ∀ n ∈ ([0x0B, 0x0D] : List (BitVec 8)),
    (Instr.wrl n 0x0044).wellFormed = false ∧ (Instr.wrl n 0x0080).wellFormed = false := by decide
theorem test_illFormed_refValid : (Instr.wrl 0x15 2).wellFormed = false := by decide
theorem test_illFormed_number : (Instr.wrl 0x1A 0).wellFormed = false := by decide
theorem test_illFormed_wrh : (Instr.wrh 0x00 0).wellFormed = false ∧ (Instr.wrh 0x1A 0).wellFormed = false := by decide
theorem test_illFormed_qpadd : (Instr.qpadd 26).wellFormed = false ∧ (Instr.qpadd 0xE5).wellFormed = false := by decide
theorem test_illFormed_cqp : (Instr.cqp 3 0 false).wellFormed = false ∧ (Instr.cqp 0 3 false).wellFormed = false := by decide
theorem test_illFormed_mcl : (Instr.mcl 3 0).wellFormed = false ∧ (Instr.mcl 0 3).wellFormed = false := by decide
theorem test_illFormed_mcc : (Instr.mcc 3 0).wellFormed = false ∧ (Instr.mcc 0 3).wellFormed = false := by decide

/-! ### One step of each command (95_test_vectors.md, or the example of the command's rule) -/

theorem test_nop : (after 0x00000000 State.reset).map (·.cix) = some 1 := by decide
theorem test_end : (after 0x01000000 State.reset).map (fun t => (t.status, t.cix, t.irq)) = some (.done, 1, true) := by decide
theorem test_wrl : (after 0x0201FFF4 State.reset).map (fun t => t.regs.read .cqpoCb) = some 0xFFFFFFF4 := by decide
theorem test_wrh : (after 0x030FFFFF (withG { planes with mcX := 0x1FFEA })).map (·.regs.mcX) = some 0xFFFFFFEA := by decide
theorem test_setc : (after 0x0401FFFD State.reset).map (coefs 3) = some [0, -3, 0] := by decide
theorem test_clrc : (after 0x05000000 (withC State.reset [1, 2, 3])).map (coefs 3) = some [0, 0, 0] := by decide
theorem test_sets : (after 0x06030042 State.reset).map samples = some [0, 0, 0, 66, 0, 0, 0, 0] := by decide
/-- R131: the scan positions 0..15 as data. -/
theorem test_zigzag : (after 0x10000000 (withC State.reset [0, 1, 2, 3, 4, 5, 6, 7, 8, 9, 10, 11, 12, 13, 14, 15])).map
    (coefs 16) = some [0, 1, 5, 6, 2, 4, 7, 12, 3, 8, 11, 13, 9, 10, 14, 15] := by decide
/-- Vector: a block with both AC signs. -/
theorem test_idct4 : (after 0x11000000 (withC State.reset [0, 0, 0, 0, 0, 0, 0, 0, 0, 0, 0, 63, 0, 127, 0, 0])).map
    (coefs 16) = some [1, 0, 0, -1, -2, 0, 0, 2, 2, 2, -2, -1, 0, -1, 1, 1] := by decide
/-- `A * c * A` for a `c` with one entry, worked by hand from R133. -/
theorem test_ihad4 : (after 0x12000000 (withC State.reset [0, 1])).map (coefs 16) =
    some [1, 1, -1, -1, 1, 1, -1, -1, 1, 1, -1, -1, 1, 1, -1, -1] := by decide
/-- R134 by hand: sums of 1, 2, 4, 8; entry 4 kept. -/
theorem test_ihad2 : (after 0x13000000 (withC State.reset [1, 2, 4, 8, 9])).map (coefs 5) = some [15, -5, -9, 3, 9] := by
  decide
theorem test_mvdc : (after 0x14000000 (withC State.reset [768, 640])).map (fun t => (t.dc[1].toInt, coefs 1 t)) =
    some (640, [768]) := by decide
theorem test_mrgdc : (after 0x15000001 ((withC State.reset [5, 6]).withDc (Vector.replicate 16 640))).map (coefs 2) =
    some [640, 6] := by decide
theorem test_idct8 : (after 0x18000000 State.reset).map (faultedWith .unsupportedFeatureError 0x18000000) = some true := by
  decide
/-- R153: 50 + 5 wraps to 3; 26 is refused. -/
theorem test_qpadd : (after 0x20000005 (withG { planes with qpy := 50 })).map (·.regs.qpy) = some 3 ∧
    (after 0x2000001A State.reset).map (faultedWith .parseError 0x2000001A) = some true := by decide
/-- Vectors: QPY 36 with offset -2 gives 32; field values of 3 are refused. -/
theorem test_cqp : (after 0x21000000 (withG { planes with qpy := 36, cqpoCb := -2 })).map (·.regs.qpc) = some 32 ∧
    (after 0x21000018 State.reset).map (faultedWith .parseError 0x21000018) = some true := by decide
/-- Vector: QP 13 scales positions 0, 1, 5 by 44, 56, 72. -/
theorem test_dqac : (after 0x22000000 (withC (withG { planes with qpy := 13 }) [1, 1, 0, 0, 0, 1])).map (coefs 6) =
    some [44, 56, 0, 0, 0, 72] := by decide
/-- Vector: QPY 28. -/
theorem test_dqdcl : (after 0x23000000 (withC (withG { planes with qpy := 28 }) [1, -1, 2, -2])).map (coefs 4) =
    some [64, -64, 128, -128] := by decide
/-- Vector: QPC 39; entry 4 kept. -/
theorem test_dqdcc : (after 0x24000000 (withC (withG { planes with qpc := 39 }) [6, 10, 4, 8, 9])).map (coefs 5) =
    some [2688, 4480, 1792, 3584, 9] := by decide
/-- R224 and R222: a plane that does not fit, no reference, and the order of the two. -/
theorem test_mcl_faults : (after 0x30000000 State.reset).map (faultedWith .referenceError 0x30000000) = some true ∧
    (after 0x30000000 (withG { planes with refBase := 4081 })).map (faultedWith .bufferSizeError 0x30000000) = some true ∧
    (after 0x30000002 State.reset).map (faultedWith .unsupportedFeatureError 0x30000002) = some true := by decide
/-- A plane whose every sample is 0 but the last, 64: full-sample copy at (3, 3), worked by hand from R171, R174. -/
theorem test_mcl : (after 0x30000000 ((withG { planes with mcX := 8, mcY := 12 }).memWrite 4095 64)).map
    (fun t => (t.pred[0].toList.take 5).map BitVec.toNat) = some [0, 64, 64, 64, 0] := by decide
/-- The same plane, a quarter of the way in both directions: 32 / 8 by hand from R176. -/
theorem test_mcc : (after 0x31000000 ((withG { planes with mcX := 18, mcY := 18 }).memWrite 4095 64)).map
    (fun t => (t.pred[0].toList.take 3).map BitVec.toNat) = some [4, 16, 0] := by decide
theorem test_mcbi : (after 0x38000000 State.reset).map (faultedWith .unsupportedFeatureError 0x38000000) = some true := by
  decide
/-- Vectors of R191: intra at a macroblock edge, nonzero coefficients, a vector difference of 4, none. -/
theorem test_bs : (after 0x40000001 (withG { planes with bspInfo := 1 })).map (·.regs.dbBs) = some 4 ∧
    (after 0x40000000 (withG { planes with bsqInfo := 0x0040 })).map (·.regs.dbBs) = some 2 ∧
    (after 0x40000000 (withG { planes with bspMv := 0x00040000 })).map (·.regs.dbBs) = some 1 ∧
    (after 0x40000000 (withG { planes with bspMv := 0x00030000 })).map (·.regs.dbBs) = some 0 := by decide
/-- Vector: the chroma strong filter. -/
theorem test_dbl_strong : (after 0x41000001 (withS (withG { planes with dbBs := 4, dbQpp := 40, dbQpq := 40 })
    [100, 100, 100, 100, 110, 110, 110, 110])).map samples = some [100, 100, 100, 103, 108, 110, 110, 110] := by decide
/-- Vector: the luma normal filter with ALPHA_OFF 3. -/
theorem test_dbl_normal : (after 0x41000000 (withS (withG { planes with dbBs := 1, dbQpp := 22, dbQpq := 22, alphaOff := 3 })
    [60, 62, 64, 66, 74, 76, 78, 80])).map samples = some [60, 62, 64, 67, 73, 76, 78, 80] := by decide
theorem test_ldln : (after 0x42000000 ((withG planes).memWrite (4032 + 32 + 7) 9)).map samples =
    some [0, 0, 0, 0, 0, 0, 0, 9] := by decide
theorem test_ldln_fault : (after 0x42000000 (withG { planes with dbX := 3 })).map (faultedWith .bufferSizeError 0x42000000) =
    some true := by decide
/-- R200: `S[1..6]` down the column, `S[0]` and `S[7]` not stored. -/
theorem test_stln : (after 0x43000001 (withS (withG planes) [1, 2, 3, 4, 5, 6, 7, 8])).map (·.sm) =
    some [(4044, 2), (4052, 3), (4060, 4), (4068, 5), (4076, 6), (4084, 7)] := by decide
theorem test_stln_fault : (after 0x43000001 (withG { planes with curH := 7 })).map
    (fun t => (faultedWith .bufferSizeError 0x43000001 t, t.sm)) = some (true, []) := by decide
/-- R42, R97: an undefined word at `CIX` 7 records 7. -/
theorem test_undefined_word : (after 0xFFFFFFFF { State.reset with cix := 7 }).map (fun t => (t.faultCix, t.faultCause.code)) =
    some (7, 1) := by decide
/-- R46: STATUS of a block in FAULT. -/
theorem test_status_word : (State.reset.enterFault .parseError 0).statusWord = 6 := by decide
/-- R101: WR32. -/
theorem test_assemble : assemble (.wr32 (.name .mcX) 0xFFFFFFEA) = some [.wrl 0x0F 0xFFEA, .wrh 0x0F 0xFFFF] := by decide
theorem test_fetch_word : (match step (State.reset.withFetchWord 32 0x06030042) with
    | .next t => some (samples t)
    | _ => none) = some [0, 0, 0, 66, 0, 0, 0, 0] := by decide

/-! ### Witnesses: the hypotheses of each statement that has any, met together, each clause at a boundary -/

/-- A state that meets the invariant, with a word in its queue. -/
def queued (w : Word) : State := { withG planes with queue := [w] }

theorem test_queued_inv : (queued 0x11000000).Inv :=
  ⟨by decide, by decide, by decide, by decide, by decide, by decide⟩

theorem test_witness_DecodedCommandEncodesItsWord : decode 0x15000005 = .ok (.mrgdc 5) := by decide

theorem test_witness_DecoderAcceptsExactlyTheOpcodeMap :
    ∃ r ∈ opcodeMap, r.selects 0x4200_0001 = true ∧ ∃ r' ∈ opcodeMap, r'.selects 0x4200_0001 = true :=
  ⟨⟨"LDLN", 0x42000000, 0xFFFFFFFE⟩, by decide, by decide, ⟨"LDLN", 0x42000000, 0xFFFFFFFE⟩, by decide, by decide⟩

theorem test_witness_FormatZWordsHaveZeroLowBits :
    ((0x24000000 : Word) >>> 24 = 0x24 ∧ (0x24000000 : Word) % 0x1000000 = 0) ∧
    ((0x24800000 : Word) >>> 24 = 0x24 ∧ (0x24800000 : Word) % 0x1000000 ≠ 0) := by decide

theorem test_witness_Wr32LoadsAWideRegister : CReg.curBase ∈ [CReg.bspMv, .bsqMv, .mcX, .mcY, .refBase, .curBase] := by
  decide

/-- A command, a word that is none, and the two ways of not being enabled. -/
theorem test_witness_StepRunsTheDecodedCommand :
    ((queued 0x11000000).status = .run ∧ (queued 0x11000000).queue = 0x11000000 :: [] ∧ decode 0x11000000 = .ok .idct4) ∧
    ((queued 0x11000001).status = .run ∧ (queued 0x11000001).queue = 0x11000001 :: [] ∧
      decode 0x11000001 = .error .reservedBitSet) ∧
    ({ queued 0 with status := .done }.status ≠ .run) ∧ State.reset.queue = [] := by decide

/-- Each step of R105: the reserved opcode, an undefined one, a field, a shape, the reference, the plane, the position,
and a command that executes. -/
theorem test_witness_FirstApplicableFaultIsTaken :
    faultOfWord 0x38000000 (withG planes) = .unsupportedFeatureError ∧
    faultOfWord 0x17000000 (withG planes) = .parseError ∧
    faultOfWord 0x02000034 (withG planes) = .parseError ∧
    faultOfWord 0x30000002 (withG CtrlRegs.zero) = .unsupportedFeatureError ∧
    faultOfWord 0x3000000A (withG CtrlRegs.zero) = .referenceError ∧
    faultOfWord 0x3000000A (withG { planes with refW := 5 }) = .bufferSizeError ∧
    faultOfWord 0x42000001 (withG { planes with dbY := 5 }) = .bufferSizeError ∧
    faultOfWord 0x3000000A (withG planes) = .none ∧
    (queued 0x3000000A).status = .run ∧ (queued 0x3000000A).queue = 0x3000000A :: [] := by decide

theorem test_witness_ParseErrorDependsOnTheWordAlone :
    (Instr.wrl 0x00 52).wellFormed = false ∧ (Instr.wrl 0x00 51).wellFormed = true ∧
    State.reset.faultCause ≠ .parseError := by decide

theorem test_witness_EveryStepKeepsTheInvariant :
    ∃ t, (queued 0x11000000).Inv ∧ step (queued 0x11000000) = .next t := ⟨_, test_queued_inv, rfl⟩

theorem test_witness_EveryEventKeepsTheInvariant :
    ∃ t, { queued 0 with status := .done }.Inv ∧
      sysStep (.host (.smWrite 4095 9)) { queued 0 with status := .done } = .next t :=
  ⟨_, ⟨by decide, by decide, by decide, by decide, by decide, by decide⟩, rfl⟩

/-- One command for each clause. -/
theorem test_witness_DataFilesHaveTheirNamedWriters :
    (∃ t, exec (.setc 15 1) State.reset = .next t ∧ t.coef ≠ State.reset.coef) ∧
    (∃ t, exec .mvdc (withC State.reset [1]) = .next t ∧ t.dc ≠ (withC State.reset [1]).dc) ∧
    (∃ t, exec (.sets 7 1) State.reset = .next t ∧ t.line ≠ State.reset.line) ∧
    (∃ t, exec (.mcc 0 0) ((withG planes).memWrite 4080 100) = .next t ∧ t.pred ≠ (withG planes).pred) ∧
    ∃ t, exec (.stln false) (withS (withG planes) [0, 1]) = .next t ∧ t.sm ≠ (withG planes).sm :=
  ⟨⟨_, rfl, by decide⟩, ⟨_, rfl, by decide⟩, ⟨_, rfl, by decide⟩,
    ⟨_, rfl, fun h => absurd (congrArg (fun p : Pred => p[0][0]) h) (by decide)⟩, ⟨_, rfl, by decide⟩⟩

theorem test_witness_ControlRegistersHaveTheirNamedWriters :
    (∃ t, exec (.wrl 0x19 1) State.reset = .next t ∧ t.regs.read .curH ≠ State.reset.regs.read .curH) ∧
    (∃ t, exec (.wrh 0x16 1) State.reset = .next t ∧ t.regs.read .curBase ≠ State.reset.regs.read .curBase) ∧
    (∃ t, exec (.qpadd 25) State.reset = .next t ∧ t.regs.read .qpy ≠ State.reset.regs.read .qpy) ∧
    (∃ t, exec (.cqp 1 2 true) (withG planes) = .next t ∧ t.regs.read .dbQpq ≠ (withG planes).regs.read .dbQpq) ∧
    ∃ t, exec (.bs false) (withG planes) = .next t ∧ t.regs.read .dbBs ≠ (withG planes).regs.read .dbBs :=
  ⟨⟨_, rfl, by decide⟩, ⟨_, rfl, by decide⟩, ⟨_, rfl, by decide⟩, ⟨_, rfl, by decide⟩, ⟨_, rfl, by decide⟩⟩

/-- The last legal value of each kind of register. -/
theorem test_witness_WrlLoadsTheNamedRegister :
    wrlAllowed 0x00 51 = true ∧ wrlAllowed 0x01 12 = true ∧ wrlAllowed 0x02 0xFFF4 = true ∧ wrlAllowed 0x04 6 = true ∧
    wrlAllowed 0x05 0xFFFA = true ∧ wrlAllowed 0x08 4 = true ∧ wrlAllowed 0x0B 0xFF43 = true ∧
    wrlAllowed 0x15 1 = true ∧ wrlAllowed 0x19 0xFFFF = true := by decide

theorem test_witness_WrhReplacesTheHighHalf : wrhAllowed 0x0C = true ∧ wrhAllowed 0x16 = true := by decide

theorem test_witness_ZigzagPermutesTheBlock : State.reset.cfg.zigzag4x4.toList.Nodup := by decide

theorem test_witness_IdctIsExactOnBoundedBlocks :
    ∀ i j, |(Block.at (withC State.reset [33554431, -33554431]).coef i j).toInt| < 2 ^ 25 := by decide

/-- Both ends of the file. -/
theorem test_witness_DcMovesCopyEntries :
    ((0 : Fin 16).val = (0 : BitVec 4).toNat ∧ (15 : Fin 16).val = (15 : BitVec 4).toNat) ∧ (1 : Fin 16).val ≠ 0 := by decide

theorem test_witness_ReservedFeaturesAlwaysFault :
    (0x18FFFFFF : Word) >>> 24 = 0x18 ∧ (0x38FFFFFF : Word) >>> 24 = 0x38 := by decide

/-- Both ends of the range of `delta`, and the first values outside. -/
theorem test_witness_QpaddWrapsModulo52 :
    (withG { planes with qpy := 51 }).regs.qpy.toNat ≤ 51 ∧
    (∀ d ∈ ([0xE6, 25] : List (BitVec 8)), -26 ≤ d.toInt ∧ d.toInt ≤ 25) ∧
    ∀ d ∈ ([0xE5, 26] : List (BitVec 8)), ¬(-26 ≤ d.toInt ∧ d.toInt ≤ 25) := by decide

theorem test_witness_CqpMapsTheChromaQp : (2 : BitVec 2) ≠ 3 ∧ (0 : BitVec 2) ≠ 3 := by decide

theorem test_witness_ScalersAgreeWithTheLaterEdition :
    let s := withC (withG { planes with qpy := 51, qpc := 51 }) [-32768, 32767]
    s.regs.qpy.toNat ≤ 51 ∧ s.regs.qpc.toNat ≤ 51 ∧ ∀ k : Fin 16, -32768 ≤ s.coef[k].toInt ∧ s.coef[k].toInt ≤ 32767 := by
  decide

/-- A plane that ends with the memory, at the largest size; inside and outside an 8x4 rectangle, at a fraction of 3. -/
theorem test_witness_MclPredictsTheRectangle :
    let s := withG { planes with mcX := 0xFFFFFFFF }
    LegalSize 2 2 ∧ LegalSize 0 1 ∧ s.regs.refValid = 1 ∧ RefOK s ∧
    ((7 : Fin 16).val < 4 * 2 ^ (1 : BitVec 2).toNat ∧ (3 : Fin 16).val < 4 * 2 ^ (0 : BitVec 2).toNat ∧
      ((3 : Fin 4).val : Int) = s.regs.mcX.toInt % 4 ∧ ((0 : Fin 4).val : Int) = s.regs.mcY.toInt % 4) ∧
    ¬((8 : Fin 16).val < 4 * 2 ^ (1 : BitVec 2).toNat ∧ (0 : Fin 16).val < 4 * 2 ^ (0 : BitVec 2).toNat) := by decide

theorem test_witness_MccPredictsTheRectangle :
    let s := withG { planes with mcX := 0xFFFFFFFF }
    LegalSize 2 2 ∧ LegalSize 0 1 ∧ s.regs.refValid = 1 ∧ RefOK s ∧
    ((3 : Fin 16).val < 2 * 2 ^ (1 : BitVec 2).toNat ∧ (1 : Fin 16).val < 2 * 2 ^ (0 : BitVec 2).toNat) ∧
    ¬((4 : Fin 16).val < 2 * 2 ^ (1 : BitVec 2).toNat ∧ (0 : Fin 16).val < 2 * 2 ^ (0 : BitVec 2).toNat) := by decide

/-- A plane of one byte of value 7 in a memory that holds another value beside it. -/
theorem test_witness_FlatPlanePredictsFlatBlock :
    let s : State := { withG { planes with refBase := 0, refStride := 1, refW := 1, refH := 1 } with
      cfg := { defaultConfig with smSize := 2 }, sm := [(0, 7), (1, 9)] }
    LegalSize 2 2 ∧ s.regs.refValid = 1 ∧ RefOK s ∧ s.cfg.lumaTaps.toList.sum = 32 ∧
    (∀ x < s.regs.refW.toNat, ∀ y < s.regs.refH.toNat,
      s.memRead (s.regs.refBase.toNat + y * s.regs.refStride.toNat + x) = 7) ∧
    ((15 : Fin 16).val < 4 * 2 ^ (2 : BitVec 2).toNat ∧ (7 : Fin 16).val < 2 * 2 ^ (2 : BitVec 2).toNat) := by decide

/-- A plane that ends with the memory, the last line along a row and the last down a column. -/
theorem test_witness_AccessesStayInsideTheSampleMemory :
    RefOK (withG planes) ∧ LineFits false (withG { planes with dbY := 7 }) ∧ LineFits true (withG { planes with dbX := 7 }) := by
  decide

theorem test_witness_DblChangesOnlySamplesNearTheEdge :
    ¬ Filtered (withG { planes with dbBs := 0 }) ∧ ¬ Filtered (withS (withG planes) [0, 0, 0, 0, 255]) := by decide

/-- `DB_BS` at 1 and 3. -/
theorem test_witness_NormalFilterIsExact :
    (∀ b ∈ ([1, 3] : List (BitVec 3)), Filtered (withG { planes with dbBs := b }) ∧
      (withG { planes with dbBs := b }).regs.dbBs.toNat ≤ 3) := by decide

theorem test_witness_NormalFilterMovesAreBounded : (withG { planes with dbBs := 3 }).regs.dbBs.toNat ≤ 3 := by decide

theorem test_witness_StrongFilterIsExact :
    Filtered (withG { planes with dbBs := 4 }) ∧ (withG { planes with dbBs := 4 }).regs.dbBs = 4 := by decide

theorem test_witness_StrongFilterIsMirrorSymmetric : (withG { planes with dbBs := 4 }).regs.dbBs = 4 := by decide

/-- One index at 15, the other above. -/
theorem test_witness_LowIndicesLeaveTheLine :
    let s := withG { planes with dbQpp := 15, dbQpq := 15, betaOff := 6 }
    s.cfg.alphaTab = defaultAlphaTab ∧ s.cfg.betaTab = defaultBetaTab ∧
      (indexA s.regs).val < 16 ∧ (indexB s.regs).val = 27 := by decide

/-- The line at `(x, y)` of the 8x8 plane. -/
def lineAt (x y : BitVec 16) : State := withG { planes with dbX := x, dbY := y }

/-- The first and last positions that fit, in both directions. -/
theorem test_witness_LdlnLoadsTheLine :
    LineFits false (lineAt 4 0) ∧ LineFits false (lineAt 4 7) ∧ LineFits true (lineAt 0 4) ∧ LineFits true (lineAt 7 4) := by
  decide

/-- The first positions that do not fit. -/
theorem test_witness_LdlnLoadsTheLine_fault :
    ¬ LineFits false (lineAt 3 0) ∧ ¬ LineFits false (lineAt 5 0) ∧ ¬ LineFits false (lineAt 4 8) ∧
    ¬ LineFits true (lineAt 8 4) ∧ ¬ LineFits true (lineAt 0 3) ∧ ¬ LineFits true (lineAt 0 5) := by decide

theorem test_witness_StlnStoresTheMiddleSix :
    let s := (withG { planes with dbX := 7 }).memWrite 4039 5
    Memory.wf s.sm ∧ LineFits true s ∧ ¬ LineFits false s ∧ (1 ≤ (6 : Fin 8).val ∧ (6 : Fin 8).val ≤ 6) ∧
      ∀ k : Fin 8, 1 ≤ k.val → k.val ≤ 6 → 4039 ≠ lineAddr true s.regs k.val := by decide

theorem test_witness_LoadThenStoreKeepsTheSampleMemory :
    let s := (withG planes).memWrite 4067 5
    Memory.wf s.sm ∧ LineFits false s ∧ LineFits true s := by decide

theorem test_witness_CanonicalMemoriesAreEqualWhenTheyReadEqual :
    ∃ m n : List Host.Cell, m ≠ [] ∧ Memory.wf m ∧ Memory.wf n ∧ ∀ a, Memory.read m a = Memory.read n a :=
  ⟨[(3, 1), (9, 2)], [(3, 1), (9, 2)], by decide, by decide, by decide, fun _ => rfl⟩

/-- The four transitions. -/
theorem test_witness_StateHasOnlyItsTransitions :
    (∃ t, sysStep .sequencer (queued 0x01000000) = .next t ∧ t.status ≠ (queued 0x01000000).status) ∧
    (∃ t, sysStep .sequencer (queued 0x18000000) = .next t ∧ t.status ≠ (queued 0x18000000).status) ∧
    (∃ t, sysStep (.host (.portWrite 0 2)) { queued 0 with status := .done } = .next t ∧ t.status ≠ .done) ∧
    ∃ t, sysStep (.host (.portWrite 0 1)) { queued 0 with status := .fault } = .next t ∧ t.status ≠ .fault :=
  ⟨⟨_, rfl, by decide⟩, ⟨_, rfl, by decide⟩, ⟨_, rfl, by decide⟩, ⟨_, rfl, by decide⟩⟩

theorem test_witness_AckReturnsOnlyFromDone :
    ((2 : Word).getLsbD 1 = true ∧ (2 : Word).getLsbD 0 = false) ∧ ((3 : Word).getLsbD 1 = true ∧ (3 : Word).getLsbD 0 = true) ∧
    ({ queued 0 with status := .done }.status = .done ∧ { queued 0 with status := .done }.queue = 0 :: [] ∧
      decode 0 = .ok .nop) ∧ (queued 0).status ≠ .done := by decide

theorem test_witness_FaultIsLeftOnlyByReset :
    ∃ t, { queued 0 with status := .fault }.status = .fault ∧
      hostAct (.portWrite 6 7) { queued 0 with status := .fault } = .next t ∧
      ∀ v : Word, v.getLsbD 0 = true → HostAction.portWrite 6 7 ≠ .portWrite 0x000 v :=
  ⟨_, rfl, rfl, fun _ _ h => by injection h with h _; exact absurd h (by decide)⟩

theorem test_witness_HostWritesNoRegister :
    ∃ t, hostAct (.portWrite 0 2) { queued 0 with status := .done } = .next t ∧
      ∀ v : Word, v.getLsbD 0 = true → HostAction.portWrite 0 2 ≠ .portWrite 0x000 v :=
  ⟨_, rfl, fun v hv h => by injection h with _ h; subst h; exact absurd hv (by decide)⟩

theorem test_witness_HostPortReadsTheState :
    (State.reset.quiescent = true ∧ { queued 0 with status := .fault }.quiescent = true) ∧
    (∀ idx ∈ [0x000, 0x006, 0x03F, 0x05A, 0x07F, 0x0A8, 0x0FF, 0x200], ¬ PortReadable idx) ∧
    ((0x001 : Nat) ≠ 0x000 ∧ (0x001 : Nat) ≠ 0x006) := by decide

/-- The last push that fits and the first that does not. -/
theorem test_witness_PushAppendsOrWaits :
    ((holding 63 []).waiting = [] ∧ (holding 63 []).queue.length < (holding 63 []).cfg.cmdqDepth) ∧
    ((holding 63 [5]).waiting ≠ [] ∨ (holding 63 [5]).cfg.cmdqDepth ≤ (holding 63 [5]).queue.length) ∧
    ((holding 64 []).waiting ≠ [] ∨ (holding 64 []).cfg.cmdqDepth ≤ (holding 64 []).queue.length) ∧
    ((holding 63 [5]).waiting = 5 :: [] ∧ (holding 63 [5]).queue.length < (holding 63 [5]).cfg.cmdqDepth) ∧
    ((holding 64 [5]).waiting = 5 :: [] ∧ (holding 64 [5]).cfg.cmdqDepth ≤ (holding 64 [5]).queue.length) ∧
    ((holding 64 [5]).status = .run ∧ (holding 64 [5]).queue ≠ [] ∧
      (holding 64 [5]).queue.length ≤ (holding 64 [5]).cfg.cmdqDepth) := by decide

/-- An event of each clause: the sequencer in RUN, a push, the two resets, and two events that are none of these. -/
theorem test_witness_PushAppendsOrWaits_events :
    (∃ t, sysStep .sequencer (holding 64 [5]) = .next t ∧ (holding 64 [5]).status = .run) ∧
    (∃ t, sysStep (.host (.portWrite 6 7)) (holding 64 [5]) = .next t) ∧
    (∃ t, sysStep .hardReset (holding 64 [5]) = .next t ∧ IsReset .hardReset) ∧
    (∃ t, sysStep (.host (.portWrite 0 1)) (holding 64 [5]) = .next t ∧ IsReset (.host (.portWrite 0 1))) ∧
    ∀ e ∈ [Event.host .pushCompletes, .sequencer], ∃ t, sysStep e { holding 63 [5] with status := .done } = .next t ∧
      (∀ w : Word, e ≠ .host (.portWrite 0x006 w)) ∧ ¬ IsReset e ∧
      ¬(e = .sequencer ∧ { holding 63 [5] with status := .done }.status = .run) := by
  refine ⟨⟨_, rfl, rfl⟩, ⟨_, rfl⟩, ⟨_, rfl, .inl rfl⟩, ⟨_, rfl, .inr ⟨1, by decide, rfl⟩⟩, ?_⟩
  simp only [List.mem_cons, List.mem_nil_iff, or_false, forall_eq_or_imp, forall_eq]
  exact ⟨⟨_, rfl, by simp, by simp [IsReset], by simp⟩, ⟨_, rfl, by simp, by simp [IsReset], by simp⟩⟩

/-- A push into a full queue waits, and completes behind the other words once the sequencer has removed one. -/
theorem test_push_waits_then_completes :
    push 5 (holding 64 []) = holding 64 [5] ∧ completePush (holding 64 [5]) = holding 64 [5] ∧
    (completePush (holding 63 [5, 6])).queue.getLast? = some 5 ∧ (completePush (holding 63 [5, 6])).waiting = [6] := by
  decide

/-- The last byte, the first that does not exist, and a block that is not quiescent. -/
theorem test_witness_HostMemoryAccess :
    Memory.wf (State.reset.memWrite 4094 3).sm ∧ (State.reset.memWrite 4094 3).quiescent = true ∧
    4095 < State.reset.cfg.smSize ∧ State.reset.cfg.smSize ≤ 4096 ∧ (queued 0).quiescent = false := by decide

theorem test_witness_ResetLeavesTheStatedValues :
    (State.reset = State.reset ∨ ∃ s : State, State.reset = s.softReset ∨ State.reset = s.hardReset) ∧
    (1 : Word).getLsbD 0 = true := ⟨.inl rfl, by decide⟩

end Sys2Proof.Tests
end

