-- ==== Sys2Proof/Proofs/ExecOutcome.lean ====
section
/-! PROOF. What `exec` can answer, said once: every command but END raises a fault with a real cause, or completes after
an update of the data side of the machine. From it, that every command faults precisely or completes. -/

namespace Sys2Proof.Machine

open Sys2Proof.Claims

/-! ### The updates a command makes before it completes -/

/-- `u` is `s`, or `s` with one data register file, the control registers or the sample memory replaced: all that a
command other than END does before it completes. -/
inductive DataUpdate (s : State) : State → Prop where
  | none : DataUpdate s s
  | coef (b : Block) : DataUpdate s (s.withCoef b)
  | dc (b : Block) : DataUpdate s (s.withDc b)
  | line (l : Line) : DataUpdate s (s.withLine l)
  | pred (p : Pred) : DataUpdate s (s.withPred p)
  | regs (g : CtrlRegs) : DataUpdate s (s.withRegs g)
  | sm (m : List Host.Cell) : DataUpdate s { s with sm := m }

theorem dataUpdate_storeLine (dir : Bool) (s : State) : DataUpdate s (storeLine dir s) := by
  rw [storeLine_eq]
  exact .sm _

/-- The frame of a completed data update at once: on the sequencer's side of the state only `CIX` differs from `s`. -/
theorem DataUpdate.complete_eq {s u : State} (h : DataUpdate s u) :
    u.complete = { s with
      coef := u.coef, dc := u.dc, line := u.line, pred := u.pred, regs := u.regs, sm := u.sm, cix := s.cix + 1 } := by
  cases h <;> rfl

/-! ### The commands, by what they can answer -/

/-- The outcome `o` of command `i`: a raised fault with a real cause, or completion after a data update. -/
def FaultsOrUpdates (i : Instr) (s : State) (o : Host.Outcome State Fault Refusal) : Prop :=
  (∃ c, c ≠ FaultCause.none ∧ o = raise c i s) ∨ ∃ u, DataUpdate s u ∧ o = .next u.complete

theorem faultsOrUpdates_raise {c : FaultCause} (hc : c ≠ .none) (i : Instr) (s : State) :
    FaultsOrUpdates i s (raise c i s) := .inl ⟨c, hc, rfl⟩

theorem DataUpdate.faultsOrUpdates {s u : State} (h : DataUpdate s u) (i : Instr) :
    FaultsOrUpdates i s (.next u.complete) := .inr ⟨u, h, rfl⟩

theorem execWrl_faultsOrUpdates (idx : BitVec 8) (imm : BitVec 16) (s : State) :
    FaultsOrUpdates (.wrl idx imm) s (execWrl idx imm s) := by
  unfold execWrl
  split
  · exact (DataUpdate.regs _).faultsOrUpdates _
  · exact faultsOrUpdates_raise (by decide) _ _

theorem execWrh_faultsOrUpdates (idx : BitVec 8) (imm : BitVec 16) (s : State) :
    FaultsOrUpdates (.wrh idx imm) s (execWrh idx imm s) := by
  unfold execWrh
  split
  · exact (DataUpdate.regs _).faultsOrUpdates _
  · exact faultsOrUpdates_raise (by decide) _ _

theorem execQpadd_faultsOrUpdates (delta : BitVec 8) (s : State) :
    FaultsOrUpdates (.qpadd delta) s (execQpadd delta s) := by
  unfold execQpadd
  split
  · exact faultsOrUpdates_raise (by decide) _ _
  · exact (DataUpdate.regs _).faultsOrUpdates _

theorem execCqp_faultsOrUpdates (src dst : BitVec 2) (plane : Bool) (s : State) :
    FaultsOrUpdates (.cqp src dst plane) s (execCqp src dst plane s) := by
  unfold execCqp
  split
  · exact (DataUpdate.regs _).faultsOrUpdates _
  · exact faultsOrUpdates_raise (by decide) _ _

/-- The cause MCL raises is the check's own, and the branch that raises it is the one where it is not `none`. -/
theorem execMcl_faultsOrUpdates (hc wc : BitVec 2) (s : State) :
    FaultsOrUpdates (.mcl hc wc) s (execMcl hc wc s) := by
  unfold execMcl
  split
  · exact (DataUpdate.pred _).faultsOrUpdates _
  · exact faultsOrUpdates_raise ‹_› _ _

theorem execMcc_faultsOrUpdates (hc wc : BitVec 2) (s : State) :
    FaultsOrUpdates (.mcc hc wc) s (execMcc hc wc s) := by
  unfold execMcc
  split
  · exact (DataUpdate.pred _).faultsOrUpdates _
  · exact faultsOrUpdates_raise ‹_› _ _

theorem execLdln_faultsOrUpdates (dir : Bool) (s : State) : FaultsOrUpdates (.ldln dir) s (execLdln dir s) := by
  unfold execLdln
  split
  · exact (DataUpdate.line _).faultsOrUpdates _
  · exact faultsOrUpdates_raise (by decide) _ _

theorem execStln_faultsOrUpdates (dir : Bool) (s : State) : FaultsOrUpdates (.stln dir) s (execStln dir s) := by
  unfold execStln
  split
  · exact (dataUpdate_storeLine dir s).faultsOrUpdates _
  · exact faultsOrUpdates_raise (by decide) _ _

/-- END alone changes STATE when it completes (40_control_data.md R111). -/
theorem exec_endCmd (s : State) : exec .endCmd s = .next (s.withStatus .done).complete := rfl

/-- Every other command raises a real fault or completes after a data update. -/
theorem exec_faultsOrUpdates {i : Instr} (hi : i ≠ .endCmd) (s : State) : FaultsOrUpdates i s (exec i s) := by
  cases i with
  | endCmd => exact absurd rfl hi
  | nop => exact DataUpdate.none.faultsOrUpdates _
  | setc | clrc | zigzag | idct4 | ihad4 | ihad2 | mrgdc | dqac | dqdcl | dqdcc =>
    exact (DataUpdate.coef _).faultsOrUpdates _
  | mvdc => exact (DataUpdate.dc _).faultsOrUpdates _
  | sets | dbl => exact (DataUpdate.line _).faultsOrUpdates _
  | bs => exact (DataUpdate.regs _).faultsOrUpdates _
  | idct8 | mcbi => exact faultsOrUpdates_raise (c := .unsupportedFeatureError) (by decide) _ _
  | wrl idx imm => exact execWrl_faultsOrUpdates idx imm s
  | wrh idx imm => exact execWrh_faultsOrUpdates idx imm s
  | qpadd delta => exact execQpadd_faultsOrUpdates delta s
  | cqp src dst plane => exact execCqp_faultsOrUpdates src dst plane s
  | mcl hc wc => exact execMcl_faultsOrUpdates hc wc s
  | mcc hc wc => exact execMcc_faultsOrUpdates hc wc s
  | ldln dir => exact execLdln_faultsOrUpdates dir s
  | stln dir => exact execStln_faultsOrUpdates dir s

/-! ### Precise faults -/

/-- The model's fault entry is the fault state the statements describe (60_exceptions.md R229). -/
theorem raise_eq_faulted (c : FaultCause) (i : Instr) (s : State) : raise c i s = .next (faulted s c (encode i)) := rfl

/-- Settles O11: END completes by its own equation, and every other command raises a real fault or completes after a
data update, whose frame is the statement's. -/
theorem commandsFaultPreciselyOrComplete : Obligations.CommandsFaultPreciselyOrComplete := by
  intro i s
  by_cases hi : i = .endCmd
  · subst hi
    exact .inr ⟨_, exec_endCmd s, rfl, rfl, rfl, rfl, fun h => absurd rfl h, rfl, rfl, rfl, rfl⟩
  · obtain ⟨c, hc, hraise⟩ | ⟨u, hupd, hnext⟩ := exec_faultsOrUpdates hi s
    · exact .inl ⟨c, hc, hraise.trans (raise_eq_faulted c i s)⟩
    · rw [hupd.complete_eq] at hnext
      exact .inr ⟨_, hnext, rfl, rfl, rfl, rfl, fun _ => rfl, rfl, rfl, rfl, rfl⟩

end Sys2Proof.Machine
end

section
/-! PROOF. Who may change what in the block: the one file a command writes, the effects of the sequencer's step and of
the host's actions, each said once. From them: the named writers of the data files and the control registers
(10_state.md R21 to R26), the transitions of `STATE` (R41), what the host port does (R44 to R48), and that every event
keeps the invariant. -/

namespace Sys2Proof.Machine

open Sys2Proof.Claims

/-! ### What a command writes -/

/-- The commands that write `C` (10_state.md R21). -/
abbrev WritesCoef (i : Instr) : Prop :=
  (∃ n v, i = .setc n v) ∨ (∃ k, i = .mrgdc k) ∨ (∃ a b, i = .dqac a b) ∨
    i ∈ [Instr.clrc, .zigzag, .idct4, .ihad4, .ihad2, .dqdcl, .dqdcc]

/-- The commands that write `S` (10_state.md R23). -/
abbrev WritesLine (i : Instr) : Prop := (∃ n v, i = .sets n v) ∨ (∃ d, i = .ldln d) ∨ ∃ c, i = .dbl c

/-- The commands that write `PRED` (10_state.md R25). -/
abbrev WritesPred (i : Instr) : Prop := (∃ h w, i = .mcl h w) ∨ ∃ h w, i = .mcc h w

/-- `g'` is what a command that writes control registers leaves in place of `g`: the column "Written by" of 10_state.md
R26, with the values written. -/
inductive RegsWrite (c : Config) (g : CtrlRegs) : Instr → CtrlRegs → Prop where
  | wrl {idx : BitVec 8} {imm : BitVec 16} {r : CReg} {g' : CtrlRegs} (hr : cregOfNum idx.toNat = some r)
      (hw : g.writeLow r imm = some g') : RegsWrite c g (.wrl idx imm) g'
  | wrh {idx : BitVec 8} {imm : BitVec 16} {r : CReg} {g' : CtrlRegs} (hr : cregOfNum idx.toNat = some r)
      (hw : g.writeHigh r imm = some g') : RegsWrite c g (.wrh idx imm) g'
  | qpadd (delta : BitVec 8) : RegsWrite c g (.qpadd delta) { g with qpy := qpWrap g.qpy delta }
  | cqp {src dst : BitVec 2} {plane : Bool} {q : BitVec 6} {off : Int} {g' : CtrlRegs}
      (hd : cqpStore dst (chromaQp c q off) g = some g') : RegsWrite c g (.cqp src dst plane) g'
  | bs (mbedge : Bool) : RegsWrite c g (.bs mbedge)
      { g with dbBs := BitVec.ofNat 3 (boundaryStrength mbedge g.bspInfo g.bsqInfo g.bspMv g.bsqMv) }

/-- `u` is what command `i` makes of `s` before it completes: a `DataUpdate`, or END's, with the commands that write each
file named. -/
inductive Writes (s : State) : Instr → State → Prop where
  | nothing : Writes s .nop s
  | status : Writes s .endCmd (s.withStatus .done)
  | coef {i : Instr} (b : Block) (hi : WritesCoef i) : Writes s i (s.withCoef b)
  | dc (b : Block) : Writes s .mvdc (s.withDc b)
  | line {i : Instr} (l : Line) (hi : WritesLine i) : Writes s i (s.withLine l)
  | pred {i : Instr} (p : Pred) (hi : WritesPred i) : Writes s i (s.withPred p)
  | regs {i : Instr} {g : CtrlRegs} (hg : RegsWrite s.cfg s.regs i g) : Writes s i (s.withRegs g)
  | memory {dir : Bool} (hok : lineOk dir s = true) : Writes s (.stln dir) (storeLine dir s)

/-- Command `i` took `s` to `t`: it entered the fault state with a real cause, or wrote its file and completed. -/
def FaultsOrWrites (i : Instr) (s t : State) : Prop :=
  (∃ c, c ≠ FaultCause.none ∧ t = s.enterFault c (encode i)) ∨ ∃ u, Writes s i u ∧ t = u.complete

theorem faultsOrWrites_of_raise {c : FaultCause} {i : Instr} {s t : State} (hc : c ≠ .none)
    (h : raise c i s = .next t) : FaultsOrWrites i s t := .inl ⟨c, hc, raise_eq_next h⟩

theorem Writes.faultsOrWrites {i : Instr} {s u t : State} (hu : Writes s i u)
    (h : (.next u.complete : Host.Outcome State Fault Refusal) = .next t) : FaultsOrWrites i s t :=
  .inr ⟨u, hu, (Host.Outcome.next.inj h).symm⟩

theorem execWrl_faultsOrWrites {idx : BitVec 8} {imm : BitVec 16} {s t : State} (h : execWrl idx imm s = .next t) :
    FaultsOrWrites (.wrl idx imm) s t := by
  unfold execWrl at h
  split at h
  · rename_i g hg
    obtain ⟨r, hr, hw⟩ := Option.bind_eq_some_iff.1 hg
    exact (Writes.regs (.wrl hr hw)).faultsOrWrites h
  · exact faultsOrWrites_of_raise (by decide) h

theorem execWrh_faultsOrWrites {idx : BitVec 8} {imm : BitVec 16} {s t : State} (h : execWrh idx imm s = .next t) :
    FaultsOrWrites (.wrh idx imm) s t := by
  unfold execWrh at h
  split at h
  · rename_i g hg
    obtain ⟨r, hr, hw⟩ := Option.bind_eq_some_iff.1 hg
    exact (Writes.regs (.wrh hr hw)).faultsOrWrites h
  · exact faultsOrWrites_of_raise (by decide) h

theorem execQpadd_faultsOrWrites {delta : BitVec 8} {s t : State} (h : execQpadd delta s = .next t) :
    FaultsOrWrites (.qpadd delta) s t := by
  unfold execQpadd at h
  split at h
  · exact faultsOrWrites_of_raise (by decide) h
  · exact (Writes.regs (.qpadd delta)).faultsOrWrites h

theorem execCqp_faultsOrWrites {src dst : BitVec 2} {plane : Bool} {s t : State}
    (h : execCqp src dst plane s = .next t) : FaultsOrWrites (.cqp src dst plane) s t := by
  unfold execCqp at h
  split at h
  · rename_i g hg
    obtain ⟨q, -, hd⟩ := Option.bind_eq_some_iff.1 hg
    exact (Writes.regs (.cqp hd)).faultsOrWrites h
  · exact faultsOrWrites_of_raise (by decide) h

theorem execMcl_faultsOrWrites {hc wc : BitVec 2} {s t : State} (h : execMcl hc wc s = .next t) :
    FaultsOrWrites (.mcl hc wc) s t := by
  unfold execMcl at h
  split at h
  · exact (Writes.pred _ (.inl ⟨hc, wc, rfl⟩)).faultsOrWrites h
  · exact faultsOrWrites_of_raise ‹_› h

theorem execMcc_faultsOrWrites {hc wc : BitVec 2} {s t : State} (h : execMcc hc wc s = .next t) :
    FaultsOrWrites (.mcc hc wc) s t := by
  unfold execMcc at h
  split at h
  · exact (Writes.pred _ (.inr ⟨hc, wc, rfl⟩)).faultsOrWrites h
  · exact faultsOrWrites_of_raise ‹_› h

theorem execLdln_faultsOrWrites {dir : Bool} {s t : State} (h : execLdln dir s = .next t) :
    FaultsOrWrites (.ldln dir) s t := by
  unfold execLdln at h
  split at h
  · exact (Writes.line _ (.inr (.inl ⟨dir, rfl⟩))).faultsOrWrites h
  · exact faultsOrWrites_of_raise (by decide) h

theorem execStln_faultsOrWrites {dir : Bool} {s t : State} (h : execStln dir s = .next t) :
    FaultsOrWrites (.stln dir) s t := by
  unfold execStln at h
  split at h
  · exact (Writes.memory ‹_›).faultsOrWrites h
  · exact faultsOrWrites_of_raise (by decide) h

/-- Every command faults or writes the one file its rule names. -/
theorem exec_faultsOrWrites {i : Instr} {s t : State} (h : exec i s = .next t) : FaultsOrWrites i s t := by
  cases i with
  | nop => exact Writes.nothing.faultsOrWrites h
  | endCmd => exact Writes.status.faultsOrWrites h
  | setc n v => exact (Writes.coef _ (.inl ⟨n, v, rfl⟩)).faultsOrWrites h
  | mrgdc k => exact (Writes.coef _ (.inr (.inl ⟨k, rfl⟩))).faultsOrWrites h
  | dqac a b => exact (Writes.coef _ (.inr (.inr (.inl ⟨a, b, rfl⟩)))).faultsOrWrites h
  | clrc | zigzag | idct4 | ihad4 | ihad2 | dqdcl | dqdcc =>
    exact (Writes.coef _ (.inr (.inr (.inr (by decide))))).faultsOrWrites h
  | mvdc => exact (Writes.dc _).faultsOrWrites h
  | sets n v => exact (Writes.line _ (.inl ⟨n, v, rfl⟩)).faultsOrWrites h
  | dbl c => exact (Writes.line _ (.inr (.inr ⟨c, rfl⟩))).faultsOrWrites h
  | bs e => exact (Writes.regs (.bs e)).faultsOrWrites h
  | idct8 | mcbi => exact faultsOrWrites_of_raise (c := .unsupportedFeatureError) (by decide) h
  | wrl => exact execWrl_faultsOrWrites h
  | wrh => exact execWrh_faultsOrWrites h
  | qpadd => exact execQpadd_faultsOrWrites h
  | cqp => exact execCqp_faultsOrWrites h
  | mcl => exact execMcl_faultsOrWrites h
  | mcc => exact execMcc_faultsOrWrites h
  | ldln => exact execLdln_faultsOrWrites h
  | stln => exact execStln_faultsOrWrites h

/-- Settles O16: a fault leaves every file, and a command that completes writes the one file its rule names. -/
theorem dataFilesHaveTheirNamedWriters : Obligations.DataFilesHaveTheirNamedWriters := by
  intro i s t h
  obtain ⟨c, -, rfl⟩ | ⟨u, hu, rfl⟩ := exec_faultsOrWrites h
  · simp
  · cases hu with
    | nothing | status | regs => simp
    | coef b hi => exact ⟨fun _ => hi, by simp⟩
    | dc => simp
    | line l hi => exact ⟨by simp, by simp, fun _ => hi, by simp⟩
    | pred p hi => exact ⟨by simp, by simp, by simp, fun _ => hi, by simp⟩
    | memory => simp [storeLine_eq]

/-! ### Which control register a command writes -/

/-- `g'` reads as `g` in every control register but `r`. -/
def CtrlRegs.SameExcept (r : CReg) (g g' : CtrlRegs) : Prop := ∀ r' ≠ r, g'.read r' = g.read r'

/-- WRL writes the register it names and no other (10_state.md R26). -/
theorem CtrlRegs.sameExcept_writeLow {g g' : CtrlRegs} {r : CReg} {imm : BitVec 16} (h : g.writeLow r imm = some g') :
    CtrlRegs.SameExcept r g g' := by
  intro r'
  cases r with
  | qpy | qpc | dbQpp | dbQpq | cqpoCb | cqpoCr | alphaOff | betaOff | dbBs | refValid | bspInfo | bsqInfo =>
    obtain ⟨-, ⟨⟩⟩ := Option.ite_none_left_eq_some.1 h
    cases r' <;> simp [read]
  | dbX | dbY | refStride | refW | refH | curStride | curW | curH | bspMv | bsqMv | mcX | mcY | refBase | curBase =>
    obtain rfl := Option.some.inj h
    cases r' <;> simp [read]

/-- WRH writes one of the six 32-bit registers, the one it names, and no other (40_control_data.md R113). -/
theorem CtrlRegs.sameExcept_writeHigh {g g' : CtrlRegs} {r : CReg} {imm : BitVec 16} (h : g.writeHigh r imm = some g') :
    r ∈ [CReg.bspMv, .bsqMv, .mcX, .mcY, .refBase, .curBase] ∧ CtrlRegs.SameExcept r g g' := by
  cases r with
  | bspMv | bsqMv | mcX | mcY | refBase | curBase =>
    obtain rfl := Option.some.inj h
    exact ⟨by decide, fun r' => by cases r' <;> simp [read]⟩
  | _ => cases h

/-- CQP writes one of the three QP registers its field can name (42_dequant.md R154). -/
theorem cqpStore_cases {dst : BitVec 2} {v : BitVec 6} {g g' : CtrlRegs} (h : cqpStore dst v g = some g') :
    g' = { g with qpc := v } ∨ g' = { g with dbQpp := v } ∨ g' = { g with dbQpq := v } := by
  unfold cqpStore at h
  split at h
  · exact .inl (Option.some.inj h).symm
  · exact .inr (.inl (Option.some.inj h).symm)
  · exact .inr (.inr (Option.some.inj h).symm)
  · cases h

theorem cqpStore_sameExcept {dst : BitVec 2} {v : BitVec 6} {g g' : CtrlRegs} (h : cqpStore dst v g = some g') :
    ∃ r ∈ [CReg.qpc, .dbQpp, .dbQpq], CtrlRegs.SameExcept r g g' := by
  obtain rfl | rfl | rfl := cqpStore_cases h
  · exact ⟨.qpc, by decide, fun r' => by cases r' <;> simp [CtrlRegs.read]⟩
  · exact ⟨.dbQpp, by decide, fun r' => by cases r' <;> simp [CtrlRegs.read]⟩
  · exact ⟨.dbQpq, by decide, fun r' => by cases r' <;> simp [CtrlRegs.read]⟩

theorem CtrlRegs.sameExcept_qpy (g : CtrlRegs) (v : BitVec 6) : CtrlRegs.SameExcept .qpy g { g with qpy := v } :=
  fun r' => by cases r' <;> simp [read]

theorem CtrlRegs.sameExcept_dbBs (g : CtrlRegs) (v : BitVec 3) : CtrlRegs.SameExcept .dbBs g { g with dbBs := v } :=
  fun r' => by cases r' <;> simp [read]

/-- A register that reads differently is the one that was written. -/
theorem CtrlRegs.SameExcept.eq_of_read_ne {r r' : CReg} {g g' : CtrlRegs} (h : CtrlRegs.SameExcept r g g')
    (hne : g'.read r' ≠ g.read r') : r' = r := by
  by_contra hr
  exact hne (h r' hr)

/-- The field that names register `r` holds its number. -/
theorem eq_ofNat_cregNum {idx : BitVec 8} {r : CReg} (h : cregOfNum idx.toNat = some r) :
    idx = BitVec.ofNat 8 (cregNum r) := by
  rw [cregNum_of_cregOfNum h, BitVec.ofNat_toNat, BitVec.setWidth_eq]

/-- Settles O17: only a command that writes control registers can change what one reads as, and each of these writes one
register, which its row of the table names. -/
theorem controlRegistersHaveTheirNamedWriters : Obligations.ControlRegistersHaveTheirNamedWriters := by
  intro i s t r h hne
  obtain ⟨c, -, rfl⟩ | ⟨u, hu, rfl⟩ := exec_faultsOrWrites h
  · exact absurd rfl hne
  · cases hu with
    | nothing | status | coef | dc | line | pred => exact absurd rfl hne
    | memory => exact absurd (by simp [storeLine_eq]) hne
    | regs hg =>
      simp only [State.complete_regs, State.withRegs_regs] at hne
      cases hg with
      | wrl hr hw =>
        obtain rfl := (CtrlRegs.sameExcept_writeLow hw).eq_of_read_ne hne
        exact .inl ⟨_, by rw [eq_ofNat_cregNum hr]⟩
      | wrh hr hw =>
        obtain ⟨hwide, hsame⟩ := CtrlRegs.sameExcept_writeHigh hw
        obtain rfl := hsame.eq_of_read_ne hne
        exact .inr (.inl ⟨_, by rw [eq_ofNat_cregNum hr], hwide⟩)
      | qpadd delta =>
        have hr := (CtrlRegs.sameExcept_qpy _ _).eq_of_read_ne hne
        exact .inr (.inr (.inl ⟨delta, rfl, hr⟩))
      | cqp hd =>
        obtain ⟨r', hmem, hsame⟩ := cqpStore_sameExcept hd
        obtain rfl := hsame.eq_of_read_ne hne
        exact .inr (.inr (.inr (.inl ⟨_, _, _, rfl, hmem⟩)))
      | bs mbedge =>
        have hr := (CtrlRegs.sameExcept_dbBs _ _).eq_of_read_ne hne
        exact .inr (.inr (.inr (.inr ⟨mbedge, rfl, hr⟩)))

/-! ### Legal values of the control registers (10_state.md R26, R39) -/

theorem qpWrap_le (qp : BitVec 6) (delta : BitVec 8) : (qpWrap qp delta).toNat ≤ 51 := by
  unfold qpWrap
  rw [BitVec.toNat_ofInt]
  omega

theorem chromaQp_le (c : Config) (q : BitVec 6) (off : Int) : (chromaQp c q off).toNat ≤ 51 := by
  unfold chromaQp
  rw [BitVec.toNat_ofNat]
  omega

theorem boundaryStrength_le (mbedge : Bool) (p q : BitVec 16) (pMv qMv : BitVec 32) :
    boundaryStrength mbedge p q pMv qMv ≤ 4 := by
  unfold boundaryStrength
  split_ifs <;> omega

/-- A value that fits the stored width is stored as it is. -/
theorem toNat_setWidth_of_le {n k : Nat} {imm : BitVec 16} (h : imm.toNat ≤ k) (hk : k < 2 ^ n) :
    (imm.setWidth n).toNat ≤ k := by
  rw [BitVec.toNat_setWidth, Nat.mod_eq_of_lt (by omega)]
  exact h

/-- A signed value in a range that `n` bits hold is stored as it is. -/
theorem toInt_setWidth_of_range {n : Nat} {imm : BitVec 16} {lo hi : Int} (h : lo ≤ imm.toInt ∧ imm.toInt ≤ hi)
    (hn : n ≤ 16) (hlo : -(2 ^ n / 2) ≤ lo) (hhi : hi < (2 ^ n + 1) / 2) :
    lo ≤ (imm.setWidth n).toInt ∧ (imm.setWidth n).toInt ≤ hi := by
  have hdvd : 2 ^ n ∣ 2 ^ 16 := Nat.pow_dvd_pow 2 hn
  rw [BitVec.toInt_setWidth, ← Int.bmod_bmod_of_dvd hdvd, ← BitVec.toInt_eq_toNat_bmod,
    Int.bmod_eq_of_le (by push_cast; omega) (by push_cast; omega)]
  exact h

theorem CtrlRegs.legal_zero : CtrlRegs.zero.Legal := by decide

/-- Every write of WRL leaves legal values (40_control_data.md R112). -/
theorem CtrlRegs.Legal.writeLow {g g' : CtrlRegs} {r : CReg} {imm : BitVec 16} (hg : g.Legal)
    (h : g.writeLow r imm = some g') : g'.Legal := by
  obtain ⟨hqpy, hqpc, hqpp, hqpq, hcb, hcr, halpha, hbeta, hbs, hp, hq⟩ := hg
  cases r with
  | dbX | dbY | refStride | refW | refH | curStride | curW | curH | bspMv | bsqMv | mcX | mcY | refBase | curBase =>
    obtain rfl := Option.some.inj h
    simp only [Legal, *, and_self]
  | refValid =>
    obtain ⟨-, ⟨⟩⟩ := Option.ite_none_left_eq_some.1 h
    simp only [Legal, *, and_self]
  | qpy | qpc | dbQpp | dbQpq =>
    obtain ⟨hv, ⟨⟩⟩ := Option.ite_none_left_eq_some.1 h
    have hstored : (imm.setWidth 6).toNat ≤ 51 := toNat_setWidth_of_le (by omega) (by decide)
    simp only [Legal, *, and_self]
  | dbBs =>
    obtain ⟨hv, ⟨⟩⟩ := Option.ite_none_left_eq_some.1 h
    have hstored : (imm.setWidth 3).toNat ≤ 4 := toNat_setWidth_of_le (by omega) (by decide)
    simp only [Legal, *, and_self]
  | cqpoCb | cqpoCr =>
    obtain ⟨hv, ⟨⟩⟩ := Option.ite_none_left_eq_some.1 h
    have hstored : -12 ≤ (imm.setWidth 5).toInt ∧ (imm.setWidth 5).toInt ≤ 12 :=
      toInt_setWidth_of_range (by omega) (by decide) (by decide) (by decide)
    simp only [Legal, *, and_self]
  | alphaOff | betaOff =>
    obtain ⟨hv, ⟨⟩⟩ := Option.ite_none_left_eq_some.1 h
    have hstored : -6 ≤ (imm.setWidth 4).toInt ∧ (imm.setWidth 4).toInt ≤ 6 :=
      toInt_setWidth_of_range (by omega) (by decide) (by decide) (by decide)
    simp only [Legal, *, and_self]
  | bspInfo | bsqInfo =>
    obtain ⟨hv, ⟨⟩⟩ := Option.ite_none_left_eq_some.1 h
    have hstored : imm.getLsbD 7 = false ∧ infoNz imm ≤ 16 := by simpa using hv
    simp only [Legal, *, and_self]

/-- WRH writes registers whose every value is legal (40_control_data.md R113). -/
theorem CtrlRegs.Legal.writeHigh {g g' : CtrlRegs} {r : CReg} {imm : BitVec 16} (hg : g.Legal)
    (h : g.writeHigh r imm = some g') : g'.Legal := by
  cases r with
  | bspMv | bsqMv | mcX | mcY | refBase | curBase =>
    obtain rfl := Option.some.inj h
    exact hg
  | _ => cases h

/-- Every command that writes control registers leaves legal values (10_state.md R39). -/
theorem RegsWrite.legal {c : Config} {g g' : CtrlRegs} {i : Instr} (h : RegsWrite c g i g') (hg : g.Legal) :
    g'.Legal := by
  cases h with
  | wrl _ hw => exact hg.writeLow hw
  | wrh _ hw => exact hg.writeHigh hw
  | qpadd delta =>
    obtain ⟨-, hrest⟩ := hg
    exact ⟨qpWrap_le _ _, hrest⟩
  | cqp hd =>
    obtain ⟨hqpy, hqpc, hqpp, hqpq, hrest⟩ := hg
    obtain rfl | rfl | rfl := cqpStore_cases hd
    · exact ⟨hqpy, chromaQp_le _ _ _, hqpp, hqpq, hrest⟩
    · exact ⟨hqpy, hqpc, chromaQp_le _ _ _, hqpq, hrest⟩
    · exact ⟨hqpy, hqpc, hqpp, chromaQp_le _ _ _, hrest⟩
  | bs mbedge =>
    obtain ⟨hqpy, hqpc, hqpp, hqpq, hcb, hcr, halpha, hbeta, -, hinfo⟩ := hg
    refine ⟨hqpy, hqpc, hqpp, hqpq, hcb, hcr, halpha, hbeta, ?_, hinfo⟩
    have := boundaryStrength_le mbedge g.bspInfo g.bsqInfo g.bspMv g.bsqMv
    rw [BitVec.toNat_ofNat]
    omega

/-! ### The sample memory stays inside its size (20_memory.md R72) -/

/-- A sample of a plane that passes its check lies inside the sample memory. -/
theorem sampleAddr_lt {p : Plane} {n x y : Nat} (hok : planeOk p n = true) (hx : x < p.width) (hy : y < p.height) :
    sampleAddr p x y < n := by
  obtain ⟨-, -, -, hend⟩ := (planeOk_iff p n).1 hok
  have hrow : y * p.stride ≤ (p.height - 1) * p.stride := Nat.mul_le_mul_right _ (by omega)
  unfold sampleAddr
  omega

/-- LDLN and STLN pass their checks: every address of the line lies inside the sample memory (44_deblock.md R199). -/
theorem lineAddr_lt {dir : Bool} {s : State} {k : Nat} (hok : lineOk dir s = true) (hk : k < 8) :
    lineAddr dir s.regs k < s.cfg.smSize := by
  obtain ⟨hplane, hline⟩ := Bool.and_eq_true_iff.1 hok
  cases dir with
  | false =>
    obtain ⟨hlow, hhigh, hacross⟩ := (lineInside_row_iff s.regs).1 hline
    exact sampleAddr_lt hplane (by simp only [curPlane]; omega) hacross
  | true =>
    obtain ⟨hlow, hhigh, hacross⟩ := (lineInside_column_iff s.regs).1 hline
    exact sampleAddr_lt hplane hacross (by simp only [curPlane]; omega)

/-- A line store that passes its checks lists only bytes that exist. -/
theorem storeLine_smInside {dir : Bool} {s : State} (hok : lineOk dir s = true) (h : s.smInside) :
    (storeLine dir s).smInside := by
  intro p hp
  rw [storeLine_eq] at hp ⊢
  obtain hold | ⟨k, -, hk, hp⟩ := storeLine_mem (dir := dir) (s := s) (by rwa [storeLine_eq])
  · exact h p hold
  · exact hp ▸ lineAddr_lt hok (by omega)

/-! ### A command keeps the invariant -/

/-- Outside the fault state the capture registers do not depend on `CIX` (10_state.md R42). -/
theorem State.Inv.complete {s : State} (h : s.Inv) (hs : s.status ≠ .fault) : s.complete.Inv :=
  { h with capture := ⟨h.capture.1, fun hf => absurd hf hs⟩ }

/-- Fault entry captures a real cause and the position that `CIX` keeps (60_exceptions.md R229). -/
theorem State.Inv.enterFault {s : State} (h : s.Inv) {c : FaultCause} (hc : c ≠ .none) (w : Word) :
    (s.enterFault c w).Inv :=
  { h with capture := ⟨fun hf => absurd rfl hf, fun _ => ⟨hc, rfl⟩⟩ }

/-- The rest of the invariant does not depend on the queue. -/
theorem State.Inv.setQueue {s : State} (h : s.Inv) {q : List Word} (hq : q.length ≤ s.cfg.cmdqDepth) :
    { s with queue := q }.Inv :=
  { h with queueFits := hq }

/-- What a command writes before it completes keeps the invariant, and does not enter the fault state. -/
theorem Writes.inv {i : Instr} {s u : State} (hu : Writes s i u) (h : s.Inv) (hs : s.status ≠ .fault) :
    u.Inv ∧ u.status ≠ .fault := by
  cases hu with
  | nothing => exact ⟨h, hs⟩
  | status => exact ⟨{ h with capture := ⟨fun _ => h.capture.1 hs, nofun⟩ }, nofun⟩
  | coef | dc | line | pred => exact ⟨{ h with }, hs⟩
  | regs hg => exact ⟨{ h with regsLegal := hg.legal h.regsLegal }, hs⟩
  | @memory dir hok =>
    have hwf := storeLine_wf h.smCanonical dir
    have hin := storeLine_smInside hok h.smBounded
    rw [storeLine_eq] at hwf hin ⊢
    exact ⟨{ h with smCanonical := hwf, smBounded := hin }, hs⟩

theorem exec_inv {i : Instr} {s t : State} (h : s.Inv) (hs : s.status ≠ .fault) (hexec : exec i s = .next t) :
    t.Inv := by
  obtain ⟨c, hc, rfl⟩ | ⟨u, hu, rfl⟩ := exec_faultsOrWrites hexec
  · exact h.enterFault hc _
  · obtain ⟨hinv, hstatus⟩ := hu.inv h hs
    exact hinv.complete hstatus

/-! ### The sequencer's step -/

/-- What a step can do (30_encoding.md R104): nothing where it is not enabled; else it takes the head word, and faults
where the word is no command or does what `exec` does where it is one. -/
theorem step_cases {s t : State} (h : step s = .next t) :
    ((s.status ≠ .run ∨ s.queue = []) ∧ t = s) ∨
    ∃ w rest, s.status = .run ∧ s.queue = w :: rest ∧
      ((t = { s with queue := rest }.enterFault .parseError w) ∨
        ∃ i, decode w = .ok i ∧ exec i { s with queue := rest } = .next t) := by
  unfold step at h
  split at h
  · rename_i hf
    refine .inl ⟨?_, (Host.Outcome.next.inj h).symm⟩
    by_contra hen
    rw [not_or, not_not] at hen
    obtain ⟨hrun, hqueue⟩ := hen
    obtain ⟨w, rest, hq⟩ := List.exists_cons_of_ne_nil hqueue
    rw [fetch_eq_some hrun hq] at hf
    cases hf
  · rename_i w s' hf
    obtain ⟨hrun, rest, hq, rfl⟩ := fetch_some_cases hf
    refine .inr ⟨w, rest, hrun, hq, ?_⟩
    split at h
    · exact .inr ⟨_, ‹_›, h⟩
    · exact .inl (Host.Outcome.next.inj h).symm

/-- Settles O14: taking a word leaves the queue within its capacity, and in RUN a command, or the fault of a word that
is none, keeps the rest. -/
theorem everyStepKeepsTheInvariant : Obligations.EveryStepKeepsTheInvariant := by
  intro s t h hstep
  obtain ⟨-, rfl⟩ | ⟨w, rest, hrun, hq, hdone⟩ := step_cases hstep
  · exact h
  · have hfits := h.queueFits
    rw [hq, List.length_cons] at hfits
    have htaken := h.setQueue (q := rest) (by omega)
    obtain rfl | ⟨i, -, hexec⟩ := hdone
    · exact htaken.enterFault (by decide) w
    · exact exec_inv htaken (by simp [hrun]) hexec

/-! ### What the host does -/

/-- `t` is what a host action that completes makes of `s`: a reset, an ACK, a push, the completion of one, a byte of the
sample memory, a draw of the model's, or nothing. -/
inductive HostEffect (s : State) : HostAction → State → Prop where
  | reset {v : Word} (hrst : v.getLsbD 0 = true) : HostEffect s (.portWrite 0x000 v) s.softReset
  | ack {v : Word} (hrst : v.getLsbD 0 = false) (hack : v.getLsbD 1 = true) : HostEffect s (.portWrite 0x000 v) s.ack
  | push (w : Word) : HostEffect s (.portWrite 0x006 w) (push w s)
  | pushCompletes : HostEffect s .pushCompletes (completePush s)
  | smWrite {a : Nat} (v : Byte) (ha : a < s.cfg.smSize) : HostEffect s (.smWrite a v) (s.memWrite a v)
  | draw (idx : Nat) : HostEffect s (.portRead idx) { s with freeCtr := s.freeCtr + 1 }
  | nothing {a : HostAction} (ha : ∀ w, a ≠ .portWrite 0x006 w) : HostEffect s a s

theorem portWrite_effect {idx : Nat} {v : Word} {s t : State} (h : portWrite idx v s = .next t) :
    HostEffect s (.portWrite idx v) t := by
  unfold portWrite at h
  split at h
  · subst idx
    obtain rfl := Host.Outcome.next.inj h
    unfold writeHctrl
    split
    · exact .reset ‹_›
    · split
      · exact .ack (by simpa using ‹¬v.getLsbD 0 = true›) ‹_›
      · exact .nothing (by simp)
  · split at h
    · subst idx
      obtain rfl := Host.Outcome.next.inj h
      exact .push v
    · obtain rfl := Host.Outcome.next.inj h
      exact .nothing (by simp [*])

/-- A host action that completes has one of these effects (10_state.md R46 to R48, 20_memory.md R70). -/
theorem hostAct_effect {a : HostAction} {s t : State} (h : hostAct a s = .next t) : HostEffect s a t := by
  cases a with
  | portWrite idx v => exact portWrite_effect h
  | portRead idx =>
    obtain rfl := Host.Outcome.next.inj h
    obtain hsame | hdraw := portRead_state idx s
    · rw [hsame]
      exact .nothing nofun
    · rw [hdraw]
      exact .draw idx
  | smWrite a v =>
    obtain ⟨-, ha, rfl⟩ := guardSm_cases h
    exact .smWrite v ha
  | smRead a =>
    obtain ⟨-, -, rfl⟩ := guardSm_cases h
    exact .nothing nofun
  | pushCompletes =>
    obtain rfl := Host.Outcome.next.inj h
    exact .pushCompletes

/-- ACK takes DONE to RUN and does nothing in another state (60_exceptions.md R233). -/
theorem State.ack_cases (s : State) :
    (s.status = .done ∧ s.ack = s.withStatus .run) ∨ (s.status ≠ .done ∧ s.ack = s) := by
  unfold State.ack
  split
  · exact .inl ⟨‹_›, rfl⟩
  all_goals exact .inr ⟨by simp [*], rfl⟩

/-- Settles O56: of the effects of the host's actions only the reset reaches a register. -/
theorem hostWritesNoRegister : Obligations.HostWritesNoRegister := by
  intro a s t h hreset
  cases hostAct_effect h with
  | reset hrst => exact absurd rfl (hreset _ hrst)
  | ack =>
    obtain ⟨-, heq⟩ | ⟨-, heq⟩ := s.ack_cases <;> simp [heq]
  | push w =>
    obtain ⟨-, -, heq⟩ | ⟨-, heq⟩ := push_cases w s <;> simp [heq]
  | pushCompletes =>
    obtain ⟨w, rest, -, -, heq⟩ | ⟨-, heq⟩ := completePush_cases s <;> simp [heq]
  | smWrite | draw | nothing => simp

/-! ### Every event keeps the invariant -/

/-- A soft reset leaves legal registers, an empty queue and empty capture registers, and the memory as it was. -/
theorem State.Inv.softReset {s : State} (h : s.Inv) : s.softReset.Inv :=
  { h with
    regsLegal := CtrlRegs.legal_zero
    capture := ⟨fun _ => ⟨rfl, rfl, rfl⟩, nofun⟩
    queueFits := Nat.zero_le _ }

/-- A hard reset does the same and leaves a memory of free bytes, in canonical form and inside `SM_SIZE` (log 7). -/
theorem State.Inv.hardReset {s : State} (h : s.Inv) : s.hardReset.Inv :=
  { h.softReset with
    smCanonical := freeSm_wf _ _
    smBounded := fun _ hp => (freeSm_mem hp).1 }

/-- DONE and RUN have the same empty capture registers (10_state.md R42). -/
theorem State.Inv.ack {s : State} (h : s.Inv) : s.ack.Inv := by
  obtain ⟨hdone, heq⟩ | ⟨-, heq⟩ := s.ack_cases
  · rw [heq]
    exact { h with capture := ⟨fun _ => h.capture.1 (by simp [hdone]), nofun⟩ }
  · rwa [heq]

/-- A push enters the queue only where it has room (10_state.md R44). -/
theorem State.Inv.push {s : State} (h : s.Inv) (w : Word) : (push w s).Inv := by
  obtain ⟨-, hroom, heq⟩ | ⟨-, heq⟩ := push_cases w s
  · rw [heq]
    exact h.setQueue (by simpa using hroom)
  · rw [heq]
    exact { h with }

theorem State.Inv.completePush {s : State} (h : s.Inv) : (completePush s).Inv := by
  obtain ⟨w, rest, -, hroom, heq⟩ | ⟨-, heq⟩ := completePush_cases s
  · rw [heq]
    exact { h.setQueue (q := s.queue ++ [w]) (by simpa using hroom) with }
  · rwa [heq]

theorem State.Inv.memWrite {s : State} (h : s.Inv) {a : Nat} (ha : a < s.cfg.smSize) (v : Byte) : (s.memWrite a v).Inv :=
  { h with
    smCanonical := Memory.write_wf h.smCanonical a v
    smBounded := fun p hp => by
      obtain rfl | hold := Memory.mem_write hp
      · exact ha
      · exact h.smBounded p hold }

/-- Every effect of the host keeps the invariant. -/
theorem HostEffect.inv {a : HostAction} {s t : State} (ht : HostEffect s a t) (h : s.Inv) : t.Inv := by
  cases ht with
  | reset => exact h.softReset
  | ack => exact h.ack
  | push w => exact h.push w
  | pushCompletes => exact h.completePush
  | smWrite v ha => exact h.memWrite ha v
  | draw => exact { h with }
  | nothing => exact h

/-- Settles O15: the sequencer's step, each effect of the host and the hard reset keep the invariant. -/
theorem everyEventKeepsTheInvariant : Obligations.EveryEventKeepsTheInvariant := by
  intro e s t h hevent
  cases e with
  | sequencer => exact everyStepKeepsTheInvariant s t h hevent
  | host a => exact (hostAct_effect hevent).inv h
  | hardReset =>
    obtain rfl := Host.Outcome.next.inj hevent
    exact h.hardReset

/-! ### The transitions of STATE -/

/-- Settles O52: the line is defined as the negated comparison with RUN. -/
theorem irqIsStateNotRun : Obligations.IrqIsStateNotRun := by
  intro s
  simp [State.irq]

theorem whenZero_eq_ok_iff {w : Word} {lo n : Nat} {i j : Instr} :
    whenZero w lo n i = .ok j ↔ w.extractLsb' lo n = 0 ∧ i = j := by
  unfold whenZero
  split
  · simp [*]
  · simp_all

/-- One word alone decodes to END (30_encoding.md R91, R96). -/
theorem eq_encode_endCmd {w : Word} (h : decode w = .ok .endCmd) : w = encode .endCmd := by
  unfold decode decodeFields at h
  split at h
  case h_2 hop =>
    obtain ⟨hlow, -⟩ := whenZero_eq_ok_iff.1 h
    have hop' : w.toNat / 2 ^ 24 % 2 ^ 8 = 1 := by
      rwa [opcodeOf, BitVec.extractLsb'_toNat, Nat.shiftRight_eq_div_pow] at hop
    have hlow' : w.toNat % 2 ^ 24 = 0 := by
      simpa [BitVec.extractLsb'_toNat] using congrArg BitVec.toNat hlow
    have hlt := w.isLt
    refine BitVec.eq_of_toNat_eq (y := 0x01000000#32) ?_
    rw [BitVec.toNat_ofNat]
    omega
  case h_7 =>
    split at h
    · simp [whenZero_eq_ok_iff] at h
    · cases h
  all_goals simp [whenZero_eq_ok_iff] at h

/-- A command that does not fault leaves STATE, but END (10_state.md R41). -/
theorem Writes.status_eq {i : Instr} {s u : State} (h : Writes s i u) :
    (i = .endCmd ∧ u.status = .done) ∨ u.status = s.status := by
  cases h with
  | status => exact .inl ⟨rfl, rfl⟩
  | memory => exact .inr (by simp [storeLine_eq])
  | nothing | coef | dc | line | pred | regs => exact .inr rfl

/-- Where a step from RUN leads: it takes the head word, and the next state is RUN, or DONE after END, or FAULT with a
recorded cause. -/
theorem step_status {s t : State} (h : step s = .next t) : t.status = s.status ∨
    (s.status = .run ∧ t.status = .done ∧ s.queue.head? = some (encode .endCmd)) ∨
    (s.status = .run ∧ t.status = .fault ∧ t.faultCause ≠ .none) := by
  obtain ⟨-, rfl⟩ | ⟨w, rest, hrun, hq, hdone⟩ := step_cases h
  · exact .inl rfl
  · obtain rfl | ⟨i, hdec, hexec⟩ := hdone
    · exact .inr (.inr ⟨hrun, rfl, nofun⟩)
    · obtain ⟨c, hc, rfl⟩ | ⟨u, hu, rfl⟩ := exec_faultsOrWrites hexec
      · exact .inr (.inr ⟨hrun, rfl, hc⟩)
      · obtain ⟨rfl, hstatus⟩ | hstatus := hu.status_eq
        · exact .inr (.inl ⟨hrun, hstatus, by rw [hq, eq_encode_endCmd hdec]; rfl⟩)
        · exact .inl hstatus

/-- Settles O53: END and a fault in the sequencer's step, ACK and the resets are the only effects that reach STATE. -/
theorem stateHasOnlyItsTransitions : Obligations.StateHasOnlyItsTransitions := by
  intro e s t h hne
  cases e with
  | sequencer =>
    obtain hsame | ⟨hrun, hdone, hhead⟩ | ⟨hrun, hfault, hcause⟩ := step_status h
    · exact absurd hsame hne
    · exact .inl ⟨hrun, hdone, rfl, hhead⟩
    · exact .inr (.inl ⟨hrun, hfault, rfl, hcause⟩)
  | hardReset =>
    obtain rfl := Host.Outcome.next.inj h
    exact .inr (.inr (.inr ⟨rfl, .inl rfl⟩))
  | host a =>
    cases hostAct_effect h with
    | reset hrst => exact .inr (.inr (.inr ⟨rfl, .inr ⟨_, rfl, hrst⟩⟩))
    | ack _ hack =>
      obtain ⟨hdone, heq⟩ | ⟨-, heq⟩ := s.ack_cases
      · exact .inr (.inr (.inl ⟨hdone, by rw [heq]; rfl, _, rfl, hack⟩))
      · exact absurd (by rw [heq]) hne
    | push w =>
      obtain ⟨-, -, heq⟩ | ⟨-, heq⟩ := push_cases w s <;> exact absurd (by rw [heq]) hne
    | pushCompletes =>
      obtain ⟨w, rest, -, -, heq⟩ | ⟨-, heq⟩ := completePush_cases s <;> exact absurd (by rw [heq]) hne
    | smWrite | draw | nothing => exact absurd rfl hne

/-! ### The command queue -/

/-- A command and a fault leave the queue, its capacity and the waiting pushes. -/
theorem exec_queue {i : Instr} {s t : State} (h : exec i s = .next t) :
    t.queue = s.queue ∧ t.waiting = s.waiting ∧ t.cfg = s.cfg := by
  obtain ⟨c, -, rfl⟩ | ⟨u, hu, rfl⟩ := exec_faultsOrWrites h
  · exact ⟨rfl, rfl, rfl⟩
  · cases hu with
    | memory => simp [storeLine_eq]
    | nothing | status | coef | dc | line | pred | regs => exact ⟨rfl, rfl, rfl⟩

/-- A step in RUN removes the head word and no other (30_encoding.md R104). -/
theorem step_queue_of_run {s t : State} (hrun : s.status = .run) (h : step s = .next t) :
    t.queue = s.queue.tail ∧ t.waiting = s.waiting ∧ t.cfg = s.cfg := by
  obtain ⟨hoff, rfl⟩ | ⟨w, rest, -, hq, hdone⟩ := step_cases h
  · have hempty : t.queue = [] := hoff.resolve_left (absurd hrun)
    simp [hempty]
  · rw [hq, List.tail_cons]
    obtain rfl | ⟨i, -, hexec⟩ := hdone
    · exact ⟨rfl, rfl, rfl⟩
    · exact exec_queue hexec

/-- The sequencer's step always answers a next state: no command stops the model. -/
theorem step_total (s : State) : ∃ t, step s = .next t := by
  unfold step
  split
  · exact ⟨_, rfl⟩
  · split
    · rename_i s' _ _ i _
      obtain ⟨c, -, hfault⟩ | ⟨t, hnext, -⟩ := commandsFaultPreciselyOrComplete i s'
      · exact ⟨_, hfault⟩
      · exact ⟨t, hnext⟩
    · exact ⟨_, rfl⟩

theorem push_of_room {w : Word} {s : State} (hnil : s.waiting = []) (hroom : s.queue.length < s.cfg.cmdqDepth) :
    push w s = { s with queue := s.queue ++ [w] } :=
  if_pos ⟨hnil, hroom⟩

theorem push_of_not_ready {w : Word} {s : State} (h : s.waiting ≠ [] ∨ s.cfg.cmdqDepth ≤ s.queue.length) :
    push w s = { s with waiting := s.waiting ++ [w] } :=
  if_neg fun ⟨hnil, hroom⟩ => h.elim (absurd hnil) (by omega)

theorem completePush_of_room {s : State} {w : Word} {rest : List Word} (hw : s.waiting = w :: rest)
    (hroom : s.queue.length < s.cfg.cmdqDepth) :
    completePush s = { s with queue := s.queue ++ [w], waiting := rest } := by
  simp [completePush, hw, hroom]

theorem completePush_of_not_ready {s : State} (h : s.waiting = [] ∨ s.cfg.cmdqDepth ≤ s.queue.length) :
    completePush s = s := by
  obtain ⟨w, rest, hw, hroom, -⟩ | ⟨-, heq⟩ := completePush_cases s
  · obtain hnil | hfull := h
    · simp [hnil] at hw
    · omega
  · exact heq

/-- In RUN a step of a non-empty queue within its capacity makes room for the oldest waiting push (10_state.md R44). -/
theorem completePush_after_step {s : State} {w : Word} {rest : List Word} (hw : s.waiting = w :: rest)
    (hrun : s.status = .run) (hne : s.queue ≠ []) (hfits : s.queue.length ≤ s.cfg.cmdqDepth) :
    ∃ t, step s = .next t ∧ completePush t = { t with queue := s.queue.tail ++ [w], waiting := rest } := by
  obtain ⟨t, hstep⟩ := step_total s
  obtain ⟨hq, hwait, hcfg⟩ := step_queue_of_run hrun hstep
  have hroom : t.queue.length < t.cfg.cmdqDepth := by
    have := List.length_pos_of_ne_nil hne
    rw [hq, hcfg, List.length_tail]
    omega
  exact ⟨t, hstep, by rw [completePush_of_room (hwait.trans hw) hroom, hq]⟩

/-- A push adds its word behind every word that is queued or waits. -/
theorem push_words (w : Word) (s : State) :
    (push w s).queue ++ (push w s).waiting = (s.queue ++ s.waiting) ++ [w] := by
  obtain ⟨hnil, -, heq⟩ | ⟨-, heq⟩ := push_cases w s <;> simp [*]

/-- Completing a push keeps the words and their order. -/
theorem completePush_words (s : State) :
    (completePush s).queue ++ (completePush s).waiting = s.queue ++ s.waiting := by
  obtain ⟨w, rest, hw, -, heq⟩ | ⟨-, heq⟩ := completePush_cases s <;> simp [*]

/-- Every host action but a push and a reset keeps the words and their order. -/
theorem HostEffect.words {a : HostAction} {s t : State} (ht : HostEffect s a t) (hpush : ∀ w, a ≠ .portWrite 0x006 w)
    (hreset : ∀ v : Word, v.getLsbD 0 = true → a ≠ .portWrite 0x000 v) :
    t.queue ++ t.waiting = s.queue ++ s.waiting := by
  cases ht with
  | reset hrst => exact absurd rfl (hreset _ hrst)
  | push w => exact absurd rfl (hpush w)
  | ack => obtain ⟨-, heq⟩ | ⟨-, heq⟩ := s.ack_cases <;> simp [heq]
  | pushCompletes => exact completePush_words s
  | smWrite | draw | nothing => rfl

/-- Settles O58: a push and its completion by their equations, and every event by the words it leaves queued or waiting. -/
theorem pushAppendsOrWaits : Obligations.PushAppendsOrWaits := by
  refine ⟨fun w s => ⟨fun hnil hroom => ?_, fun hwait => ?_⟩, fun s w rest hw => ⟨fun hroom => ?_, fun hfull => ?_, ?_⟩,
    fun s hnil => ?_, fun e s t h => ⟨?_, ?_, ?_, ?_⟩⟩
  · exact congrArg _ (push_of_room hnil hroom)
  · exact congrArg _ (push_of_not_ready hwait)
  · exact congrArg _ (completePush_of_room hw hroom)
  · exact congrArg _ (completePush_of_not_ready (.inr hfull))
  · intro hrun hne hfits
    obtain ⟨t, hstep, heq⟩ := completePush_after_step hw hrun hne hfits
    exact ⟨t, hstep, congrArg _ heq⟩
  · exact congrArg _ (completePush_of_not_ready (.inl hnil))
  · rintro w rfl
    obtain rfl := Host.Outcome.next.inj h
    exact push_words w s
  · rintro rfl hrun
    obtain ⟨hq, hwait, -⟩ := step_queue_of_run hrun h
    exact ⟨hq, hwait⟩
  · rintro (rfl | ⟨v, rfl, hrst⟩)
    · obtain rfl := Host.Outcome.next.inj h
      exact ⟨rfl, rfl⟩
    · obtain rfl := Host.Outcome.next.inj h
      simp [writeHctrl, hrst]
  · intro hpush hreset hrun
    cases e with
    | sequencer =>
      obtain ⟨-, rfl⟩ | ⟨w, rest, hon, -⟩ := step_cases h
      · rfl
      · exact absurd ⟨rfl, hon⟩ hrun
    | hardReset => exact absurd (.inl rfl) hreset
    | host a =>
      exact (hostAct_effect h).words (fun w hw => hpush w (congrArg _ hw))
        fun v hv ha => hreset (.inr ⟨v, congrArg _ ha, hv⟩)

/-! ### Reads and writes of the host port -/

theorem portRead_of_quiescent {s : State} (h : s.quiescent = true) (idx : Nat) : portRead idx s = (portContent s idx, s) :=
  if_neg (by simp [h])

theorem portRead_of_not_dataWord {idx : Nat} (h : isDataWord idx = false) (s : State) :
    portRead idx s = (portContent s idx, s) :=
  if_neg (by simp [h])

/-- The `STATUS` word of each state: the code of STATE, and bit 2 where it is not RUN (10_state.md R46). -/
theorem State.statusWord_eq (s : State) :
    s.statusWord = match s.status with | .run => 0 | .done => 5 | .fault => 6 := by
  unfold State.statusWord State.irq
  cases s.status <;> rfl

/-- The `FAULT_CAUSE` word of each cause (10_state.md R46, 60_exceptions.md R220). -/
theorem FaultCause.code_setWidth (c : FaultCause) :
    c.code.setWidth 32 = (match c with
      | .none => 0 | .parseError => 1 | .referenceError => 2 | .unsupportedFeatureError => 3 | .bufferSizeError => 4 :
        Word) := by
  cases c <;> rfl

theorem portContent_creg (s : State) (r : CReg) : portContent s (0x040 + cregNum r) = s.regs.read r := by
  cases r <;> rfl

theorem portContent_coef (s : State) (k : Fin 16) : portContent s (0x080 + k.val) = s.coef[k] := by
  have hk := k.isLt
  simp (disch := omega) only [portContent, if_pos, if_neg, Nat.add_sub_cancel_left, Fin.ofNat_val_eq_self]

theorem portContent_dc (s : State) (k : Fin 16) : portContent s (0x090 + k.val) = s.dc[k] := by
  have hk := k.isLt
  simp (disch := omega) only [portContent, if_pos, if_neg, Nat.add_sub_cancel_left, Fin.ofNat_val_eq_self]

theorem portContent_line (s : State) (k : Fin 8) : portContent s (0x0A0 + k.val) = (s.line[k]).setWidth 32 := by
  have hk := k.isLt
  simp (disch := omega) only [portContent, if_pos, if_neg, Nat.add_sub_cancel_left, Fin.ofNat_val_eq_self]

theorem portContent_pred (s : State) (y x : Fin 16) :
    portContent s (0x100 + 16 * y.val + x.val) = (s.pred[y][x]).setWidth 32 := by
  have hy := y.isLt
  have hx := x.isLt
  have hrow : (0x100 + 16 * y.val + x.val - 0x100) / 16 = y.val := by omega
  have hcol : (0x100 + 16 * y.val + x.val - 0x100) % 16 = x.val := by omega
  simp (disch := omega) only [portContent, if_pos, if_neg, hrow, hcol, Fin.ofNat_val_eq_self]

theorem not_dataWord_of_not_readable {idx : Nat} (h : ¬ PortReadable idx) : isDataWord idx = false := by
  simp only [isDataWord, Bool.or_eq_false_iff, Bool.and_eq_false_iff, decide_eq_false_iff_not]
  omega

/-- Write-only words and words the map does not list read 0 (10_state.md R46). -/
theorem portContent_of_not_readable {idx : Nat} (h : ¬ PortReadable idx) (s : State) : portContent s idx = 0 := by
  simp (disch := omega) only [portContent, if_neg]

/-- Settles O57: the port's map word by word; a read answers the content where the block is quiescent or the word is no
data word, and has no effect but the draw of the model where neither holds. -/
theorem hostPortReadsTheState : Obligations.HostPortReadsTheState := by
  refine ⟨fun s => ⟨?_, ?_, ?_, ?_, ?_⟩, fun s hq => ⟨fun r => ?_, fun k => ⟨?_, ?_⟩, fun k => ?_, fun y x => ?_⟩,
    fun idx s hidx => ?_, fun idx v s hctrl hcmd => ?_, fun idx s => ⟨fun hq => ?_, ?_⟩⟩
  · rw [portRead_of_not_dataWord rfl]
    exact congrArg (·, s) s.statusWord_eq
  · rw [portRead_of_not_dataWord rfl]
    exact congrArg (·, s) s.faultCause.code_setWidth
  · exact portRead_of_not_dataWord rfl s
  · exact portRead_of_not_dataWord rfl s
  · exact portRead_of_not_dataWord rfl s
  · rw [portRead_of_quiescent hq, portContent_creg]
  · rw [portRead_of_quiescent hq, portContent_coef]
  · rw [portRead_of_quiescent hq, portContent_dc]
  · rw [portRead_of_quiescent hq, portContent_line]
  · rw [portRead_of_quiescent hq, portContent_pred]
  · rw [portRead_of_not_dataWord (not_dataWord_of_not_readable hidx), portContent_of_not_readable hidx]
  · simp [portWrite, hctrl, hcmd]
  · rw [portRead_of_quiescent hq]
  · obtain hsame | hdraw := portRead_state idx s
    · exact ⟨s.freeCtr, hsame⟩
    · exact ⟨_, hdraw⟩

end Sys2Proof.Machine
end

section
/-! PROOF. The sample memory (20_memory.md): a memory in canonical form is determined by its reads, where reference
fetches and lines stand and that they stay inside it, and what the host's accesses to it do. -/

namespace Sys2Proof.Machine

open Sys2Proof.Claims

/-! ### The canonical form is determined by the reads -/

/-- The head of a memory in canonical form lists the lowest address. -/
theorem Memory.head_lt_of_mem {a : Nat} {u : Byte} {m : List Host.Cell} (h : Memory.wf ((a, u) :: m)) :
    ∀ p ∈ m, a < p.1 :=
  fun _ hp => List.rel_of_pairwise_cons h.1 hp

@[simp] theorem Memory.read_head (a : Nat) (u : Byte) (m : List Host.Cell) : Memory.read ((a, u) :: m) a = u :=
  if_pos rfl

theorem Memory.read_head_ne {a : Nat} {u : Byte} {m : List Host.Cell} (h : Memory.wf ((a, u) :: m)) :
    Memory.read ((a, u) :: m) a ≠ unlistedByte := by
  rw [Memory.read_head]
  exact h.2 (a, u) List.mem_cons_self

/-- A byte that does not read as an unlisted one stands at or above the head. -/
theorem Memory.head_le_of_read_ne {a b : Nat} {u : Byte} {m : List Host.Cell} (h : Memory.wf ((b, u) :: m))
    (hread : Memory.read ((b, u) :: m) a ≠ unlistedByte) : b ≤ a := by
  by_contra hlt
  refine hread (Memory.read_of_lt fun p hp => ?_)
  obtain rfl | hp := List.mem_cons.1 hp
  · exact not_le.1 hlt
  · exact (not_le.1 hlt).trans (Memory.head_lt_of_mem h p hp)

/-- The reads of the whole memory give the reads of its tail. -/
theorem Memory.read_tail {a : Nat} {u : Byte} {m : List Host.Cell} (h : Memory.wf ((a, u) :: m)) (c : Nat) :
    Memory.read m c = if c = a then unlistedByte else Memory.read ((a, u) :: m) c := by
  split
  · subst c
    exact Memory.read_of_lt (Memory.head_lt_of_mem h)
  · exact (if_neg ‹_›).symm

/-- Settles O51, by induction on one memory: each head reads as listed, so the heads are the same cell, and so the tails
read equal. -/
theorem canonicalMemoriesAreEqualWhenTheyReadEqual : Obligations.CanonicalMemoriesAreEqualWhenTheyReadEqual := by
  intro m
  induction m with
  | nil =>
    rintro (_ | ⟨⟨b, w⟩, n⟩) - hn hread
    · rfl
    · exact absurd (hread b).symm (Memory.read_head_ne hn)
  | cons p m ih =>
    obtain ⟨a, u⟩ := p
    rintro (_ | ⟨⟨b, w⟩, n⟩) hm hn hread
    · exact absurd (hread a) (Memory.read_head_ne hm)
    · have hba : b ≤ a := Memory.head_le_of_read_ne hn (hread a ▸ Memory.read_head_ne hm)
      have hab : a ≤ b := Memory.head_le_of_read_ne hm (hread b ▸ Memory.read_head_ne hn)
      obtain rfl := le_antisymm hab hba
      obtain rfl : u = w := by simpa using hread a
      have htails := ih n (Memory.wf_tail hm) (Memory.wf_tail hn) fun c => by
        rw [Memory.read_tail hm, Memory.read_tail hn, hread c]
      rw [htails]

/-! ### Addresses of reference fetches and lines -/

/-- `Clip3` as the lower of the upper bound and the value, raised to the lower bound (00_scope.md R12). -/
theorem clip3_eq_max_min {lo hi : Int} (h : lo ≤ hi) (v : Int) : clip3 lo hi v = max lo (min hi v) := by
  unfold clip3
  split_ifs <;> omega

/-- A clamped coordinate, as an integer (43_interp.md R171). -/
theorem toNat_clip3_eq {n : Nat} (h : 1 ≤ n) (v : Int) :
    ((clip3 0 ((n : Int) - 1) v).toNat : Int) = max 0 (min ((n : Int) - 1) v) := by
  rw [clip3_eq_max_min (by omega)]
  omega

/-- A clamped coordinate lies inside the plane (43_interp.md R171). -/
theorem toNat_clip3_lt {n : Nat} (h : 1 ≤ n) (v : Int) : (clip3 0 ((n : Int) - 1) v).toNat < n := by
  have := toNat_clip3_eq h v
  omega

theorem refAddr_eq {p : Plane} (hw : 1 ≤ p.width) (hh : 1 ≤ p.height) (x y : Int) :
    (refAddr p x y : Int) =
      p.base + max 0 (min ((p.height : Int) - 1) y) * p.stride + max 0 (min ((p.width : Int) - 1) x) := by
  unfold refAddr sampleAddr
  push_cast [toNat_clip3_eq hw, toNat_clip3_eq hh]
  rfl

/-- A fetch from a plane that passes its check lies inside the sample memory, whatever the coordinates. -/
theorem refAddr_lt {p : Plane} {n : Nat} (hok : planeOk p n = true) (x y : Int) : refAddr p x y < n := by
  obtain ⟨hw, hh, -⟩ := (planeOk_iff p n).1 hok
  exact sampleAddr_lt hok (toNat_clip3_lt hw x) (toNat_clip3_lt hh y)

theorem planeOk_refPlane_iff (s : State) : planeOk (refPlane s.regs) s.cfg.smSize = true ↔ RefOK s :=
  planeOk_iff _ _

/-- The checks of LDLN and STLN (44_deblock.md R199). -/
theorem lineOk_iff (dir : Bool) (s : State) : lineOk dir s = true ↔ LineFits dir s := by
  unfold lineOk
  rw [Bool.and_eq_true]
  refine and_congr (planeOk_iff _ _) ?_
  cases dir with
  | false => exact lineInside_row_iff s.regs
  | true => exact lineInside_column_iff s.regs

/-- The addresses of a line down a column (44_deblock.md R199). -/
theorem lineAddr_column {g : CtrlRegs} (h : 4 ≤ g.dbY.toNat) (k : Nat) : lineAddr true g k =
    g.curBase.toNat + (g.dbY.toNat - 4 + k) * g.curStride.toNat + g.dbX.toNat := by
  rw [← Nat.sub_add_comm h]
  rfl

/-- The addresses of a line along a row (44_deblock.md R199). -/
theorem lineAddr_row {g : CtrlRegs} (h : 4 ≤ g.dbX.toNat) (k : Nat) : lineAddr false g k =
    g.curBase.toNat + g.dbY.toNat * g.curStride.toNat + (g.dbX.toNat - 4 + k) := by
  rw [← Nat.sub_add_comm h]
  rfl

/-- Settles O39: the addresses by their equations, and their bound from the check of the plane and of the line. -/
theorem accessesStayInsideTheSampleMemory : Obligations.AccessesStayInsideTheSampleMemory := by
  refine fun s => ⟨fun href x y => ?_, fun dir hfits k hk => ⟨?_, lineAddr_lt ((lineOk_iff dir s).2 hfits) hk⟩⟩
  · have hok := (planeOk_refPlane_iff s).2 href
    obtain ⟨hw, hh, -⟩ := href
    exact ⟨refAddr_eq hw hh x y, rfl, refAddr_lt hok x y⟩
  · obtain ⟨-, hinside⟩ := hfits
    cases dir with
    | false =>
      obtain ⟨hx, -⟩ := hinside
      exact lineAddr_row hx k
    | true =>
      obtain ⟨hy, -⟩ := hinside
      exact lineAddr_column hy k

/-! ### The host's accesses -/

theorem guardSm_next {a : Nat} {s : State} (hq : s.quiescent = true) (ha : a < s.cfg.smSize) (n : State) :
    guardSm a s n = .next n := by
  simp [guardSm, hq, ha]

theorem guardSm_outside {a : Nat} {s : State} (hq : s.quiescent = true) (ha : s.cfg.smSize ≤ a) (n : State) :
    guardSm a s n = .fault .smAddressOutside := by
  simp [guardSm, hq, ha]

theorem guardSm_racing {s : State} (hq : s.quiescent = false) (a : Nat) (n : State) :
    guardSm a s n = .refused .hostRacesBlock :=
  if_pos hq

/-- Settles O59: the three answers of the guard, and the reads after a byte's write. -/
theorem hostMemoryAccess : Obligations.HostMemoryAccess := by
  refine fun a v s hwf => ⟨fun hq ha => ?_, fun hq ha => guardSm_outside hq ha _, fun hq => guardSm_racing hq a _⟩
  exact ⟨s.memWrite a v, guardSm_next hq ha _, rfl, State.memRead_memWrite_same hwf a v,
    fun b hne => s.memRead_memWrite_ne v hne⟩

end Sys2Proof.Machine
end

section
/-! PROOF. Command words (30_encoding.md): a command decodes from its word and from no other, the decoder accepts
exactly the words that select a row of the opcode map, and words stored as bytes. -/

namespace Sys2Proof

open Sys2Proof.Laws Sys2Proof.Claims

/-! ### Fields of a word -/

/-- The two words agree in the `n` bits from bit `lo` up. -/
def SameBits (lo n : Nat) (w w' : Word) : Prop := w.extractLsb' lo n = w'.extractLsb' lo n

/-- Words that agree in two fields, one right above the other, agree in both together. -/
theorem SameBits.append {lo n hi m : Nat} {w w' : Word} (h : SameBits lo n w w') (h' : SameBits hi m w w')
    (hhi : hi = lo + n) : SameBits lo (m + n) w w' := by
  unfold SameBits at *
  rw [← BitVec.extractLsb'_append_extractLsb'_eq_extractLsb' hhi,
    ← BitVec.extractLsb'_append_extractLsb'_eq_extractLsb' hhi, h, h']

/-- A word is its opcode and its low 24 bits (30_encoding.md R90). -/
theorem eq_of_opcodeOf_of_sameBits {w w' : Word} (hop : opcodeOf w = opcodeOf w') (hlow : SameBits 0 24 w w') :
    w = w' := by
  have hall : SameBits 0 (8 + 24) w w' := hlow.append hop rfl
  simpa only [SameBits, Nat.reduceAdd, BitVec.extractLsb'_eq_self] using hall

/-- A bit of a field: bit `k - lo` of its value, and 0 below the field (30_encoding.md R90). -/
theorem getLsbD_field {m : Nat} (lo : Nat) (v : BitVec m) (k : Nat) :
    (field lo v).getLsbD k = (decide (k < 32) && decide (lo ≤ k) && v.getLsbD (k - lo)) := by
  by_cases hk : k < 32 <;> by_cases hlo : lo ≤ k <;> simp [field, hk, hlo]

@[simp] theorem getElem_field {m : Nat} (lo : Nat) (v : BitVec m) (k : Nat) (hk : k < 32) :
    (field lo v)[k] = (decide (lo ≤ k) && v.getLsbD (k - lo)) := by
  rw [← BitVec.getLsbD_eq_getElem, getLsbD_field, decide_eq_true hk, Bool.true_and]

@[simp] theorem extractLsb'_field_same {lo n : Nat} (h : lo + n ≤ 32) (v : BitVec n) :
    (field lo v).extractLsb' lo n = v := by
  apply BitVec.eq_of_getLsbD_eq
  intro k hk
  have hlt : lo + k < 32 := by omega
  rw [BitVec.getLsbD_extractLsb', getLsbD_field]
  simp [hk, hlt]

/-- A field leaves 0 in the bits below it. -/
@[simp] theorem extractLsb'_field_of_le {lo lo' n m : Nat} (h : lo + n ≤ lo') (v : BitVec m) :
    (field lo' v).extractLsb' lo n = 0 := by
  apply BitVec.eq_of_getLsbD_eq
  intro k hk
  have hbelow : ¬lo' ≤ lo + k := by omega
  rw [BitVec.getLsbD_extractLsb', getLsbD_field]
  simp [hbelow]

/-- A field leaves 0 in the bits above it. -/
@[simp] theorem extractLsb'_field_of_ge {lo lo' n m : Nat} (h : lo' + m ≤ lo) (v : BitVec m) :
    (field lo' v).extractLsb' lo n = 0 := by
  apply BitVec.eq_of_getLsbD_eq
  intro k hk
  have habove : m ≤ lo + k - lo' := by omega
  rw [BitVec.getLsbD_extractLsb', getLsbD_field, BitVec.getLsbD_of_ge v _ habove]
  simp

theorem extractLsb'_one (w : Word) (lo : Nat) : w.extractLsb' lo 1 = BitVec.ofBool (w.getLsbD lo) := by
  apply BitVec.eq_of_getLsbD_eq
  intro k hk
  obtain rfl : k = 0 := by omega
  simp

/-! ### Decoding the word of a command -/

theorem opcodeOf_encode (i : Instr) : opcodeOf (encode i) = OpcodeByte.opcode i := by
  cases i with
  | nop | endCmd | clrc | zigzag | idct4 | ihad4 | ihad2 | mvdc | dqdcl | dqdcc => rfl
  | wrl idx imm => exact OpcodeByte.wrl idx imm
  | wrh idx imm => exact OpcodeByte.wrh idx imm
  | setc n imm => exact OpcodeByte.setc n imm
  | sets n imm => exact OpcodeByte.sets n imm
  | mrgdc k => exact OpcodeByte.mrgdc k
  | idct8 x => exact OpcodeByte.idct8 x
  | qpadd delta => exact OpcodeByte.qpadd delta
  | cqp src dst plane => exact OpcodeByte.cqp src dst plane
  | dqac skipdc qsel => exact OpcodeByte.dqac skipdc qsel
  | mcl hc wc => exact OpcodeByte.mcl hc wc
  | mcc hc wc => exact OpcodeByte.mcc hc wc
  | mcbi x => exact OpcodeByte.mcbi x
  | bs mbedge => exact OpcodeByte.bs mbedge
  | dbl chroma => exact OpcodeByte.dbl chroma
  | ldln dir => exact OpcodeByte.ldln dir
  | stln dir => exact OpcodeByte.stln dir

/-- A check of bits that must be 0 passes, and what follows it accepts. -/
theorem ite_error_eq_ok {c : Prop} [Decidable c] {x : Except DecodeError Instr} {e : DecodeError} {i : Instr} :
    (if c then x else .error e) = .ok i ↔ c ∧ x = .ok i := by
  split_ifs with hc <;> simp [hc]

theorem whenZero_eq_ok {w : Word} {lo n : Nat} {i j : Instr} :
    whenZero w lo n i = .ok j ↔ w.extractLsb' lo n = 0 ∧ i = j := by
  rw [whenZero, ite_error_eq_ok, Except.ok.injEq]

/-- Every field of the word is read back as the operand, and the bits that must be 0 are. -/
theorem decode_encode (i : Instr) : decode (encode i) = .ok i := by
  rw [decode, opcodeOf_encode]
  cases i with
  | nop | endCmd | clrc | zigzag | idct4 | ihad4 | ihad2 | mvdc | dqdcl | dqdcc => rfl
  | _ =>
    simp [OpcodeByte.opcode, decodeFields, encode, flag, whenZero_eq_ok, BitVec.extractLsb'_or]

/-! ### A decoded command encodes its word -/

/-- Only the row of an opcode decodes to a command with it. -/
theorem opcode_of_decodeFields {n : Nat} {w : Word} {i : Instr} (h : decodeFields n w = .ok i) :
    n = (OpcodeByte.opcode i).toNat := by
  unfold decodeFields at h
  split at h
  -- WRL, WRH and the two reserved opcodes ask for no zeros, SETS for two fields of them; the last case is no row.
  case h_3 | h_4 | h_14 | h_22 =>
    cases h
    rfl
  case h_7 =>
    obtain ⟨-, hsets⟩ := ite_error_eq_ok.1 h
    obtain ⟨-, rfl⟩ := whenZero_eq_ok.1 hsets
    rfl
  case h_27 => cases h
  all_goals
    obtain ⟨-, rfl⟩ := whenZero_eq_ok.1 h
    rfl

theorem opcodeOf_of_decode {w : Word} {i : Instr} (h : decode w = .ok i) : opcodeOf w = OpcodeByte.opcode i :=
  BitVec.eq_of_toNat_eq (opcode_of_decodeFields h)

/-- The opcode, the fields and the bits that must be 0 are all the bits of a word, from the lowest field up. -/
theorem encode_of_decode {w : Word} {i : Instr} (h : decode w = .ok i) : encode i = w := by
  have hop := opcodeOf_of_decode h
  rw [decode, hop] at h
  refine (eq_of_opcodeOf_of_sameBits (hop.trans (opcodeOf_encode i).symm) ?_).symm
  cases i with
  | nop | endCmd | clrc | zigzag | idct4 | ihad4 | ihad2 | mvdc | dqdcl | dqdcc =>
    obtain ⟨hz, -⟩ := whenZero_eq_ok.1 h
    exact hz
  | wrl idx imm | wrh idx imm =>
    cases h
    refine SameBits.append (n := 16) ?_ ?_ rfl <;> simp [SameBits, encode, BitVec.extractLsb'_or]
  | setc n imm =>
    obtain ⟨hz, ⟨⟩⟩ := whenZero_eq_ok.1 h
    refine SameBits.append (n := 20) (SameBits.append (n := 16) ?_ ?_ rfl) ?_ rfl <;>
      simp [SameBits, encode, BitVec.extractLsb'_or, hz]
  | sets n imm =>
    obtain ⟨hhigh, h⟩ := ite_error_eq_ok.1 h
    obtain ⟨hmid, ⟨⟩⟩ := whenZero_eq_ok.1 h
    refine SameBits.append (n := 19) (SameBits.append (n := 16) (SameBits.append (n := 8) ?_ ?_ rfl) ?_ rfl) ?_ rfl <;>
      simp [SameBits, encode, BitVec.extractLsb'_or, hhigh, hmid]
  | idct8 x | mcbi x =>
    cases h
    simp [SameBits, encode, BitVec.extractLsb'_or]
  | mrgdc k =>
    obtain ⟨hz, ⟨⟩⟩ := whenZero_eq_ok.1 h
    refine SameBits.append (n := 4) ?_ ?_ rfl <;> simp [SameBits, encode, BitVec.extractLsb'_or, hz]
  | qpadd delta =>
    obtain ⟨hz, ⟨⟩⟩ := whenZero_eq_ok.1 h
    refine SameBits.append (n := 8) ?_ ?_ rfl <;> simp [SameBits, encode, BitVec.extractLsb'_or, hz]
  | mcl hc wc | mcc hc wc =>
    obtain ⟨hz, ⟨⟩⟩ := whenZero_eq_ok.1 h
    refine SameBits.append (n := 4) (SameBits.append (n := 2) ?_ ?_ rfl) ?_ rfl <;>
      simp [SameBits, encode, BitVec.extractLsb'_or, hz]
  | cqp src dst plane =>
    obtain ⟨hz, ⟨⟩⟩ := whenZero_eq_ok.1 h
    refine SameBits.append (n := 5) (SameBits.append (n := 3) (SameBits.append (n := 1) ?_ ?_ rfl) ?_ rfl) ?_ rfl <;>
      simp [SameBits, encode, flag, BitVec.extractLsb'_or, extractLsb'_one, hz]
  | dqac skipdc qsel =>
    obtain ⟨hz, ⟨⟩⟩ := whenZero_eq_ok.1 h
    refine SameBits.append (n := 2) (SameBits.append (n := 1) ?_ ?_ rfl) ?_ rfl <;>
      simp [SameBits, encode, flag, BitVec.extractLsb'_or, extractLsb'_one, hz]
  | bs b | dbl b | ldln b | stln b =>
    obtain ⟨hz, ⟨⟩⟩ := whenZero_eq_ok.1 h
    refine SameBits.append (n := 1) ?_ ?_ rfl <;>
      simp [SameBits, encode, flag, BitVec.extractLsb'_or, extractLsb'_one, hz]

theorem decode_eq_ok_iff {w : Word} {i : Instr} : decode w = .ok i ↔ encode i = w :=
  ⟨encode_of_decode, fun h => h ▸ decode_encode i⟩

/-- Settles O1: the opcode of the word selects the command's row, and its fields read back. -/
theorem decodeOfEncodeIsTheCommand : Obligations.DecodeOfEncodeIsTheCommand := decode_encode

/-! ### The opcode map -/

/-- The row of the opcode map a command stands in, by its place in the table of 30_encoding.md R96. -/
def rowNumber : Instr → Fin 26
  | .nop => 0
  | .endCmd => 1
  | .wrl _ _ => 2
  | .wrh _ _ => 3
  | .setc _ _ => 4
  | .clrc => 5
  | .sets _ _ => 6
  | .zigzag => 7
  | .idct4 => 8
  | .ihad4 => 9
  | .ihad2 => 10
  | .mvdc => 11
  | .mrgdc _ => 12
  | .idct8 _ => 13
  | .qpadd _ => 14
  | .cqp _ _ _ => 15
  | .dqac _ _ => 16
  | .dqdcl => 17
  | .dqdcc => 18
  | .mcl _ _ => 19
  | .mcc _ _ => 20
  | .mcbi _ => 21
  | .bs _ => 22
  | .dbl _ => 23
  | .ldln _ => 24
  | .stln _ => 25

/-- A field of bits that a mask does not look at. -/
theorem field_and_eq_zero {lo n : Nat} {mask : Word} (h : mask.extractLsb' lo n = 0) (v : BitVec n) :
    field lo v &&& mask = 0 := by
  apply BitVec.eq_of_getLsbD_eq
  intro k hk
  rw [BitVec.getLsbD_and, getLsbD_field]
  by_cases hin : lo ≤ k ∧ k - lo < n
  · have hmask : mask.getLsbD (lo + (k - lo)) = false := by
      simpa [hin.2] using congrArg (BitVec.getLsbD · (k - lo)) h
    rw [Nat.add_sub_cancel' hin.1] at hmask
    simp [hmask]
  · by_cases hlo : lo ≤ k
    · simp [BitVec.getLsbD_of_ge v (k - lo) (by omega)]
    · simp [hlo]

theorem selects_encode (i : Instr) : (opcodeMap[rowNumber i]).selects (encode i) = true := by
  cases i with
  | nop | endCmd | clrc | zigzag | idct4 | ihad4 | ihad2 | mvdc | dqdcl | dqdcc => rfl
  | _ =>
    simp [rowNumber, opcodeMap, OpcodeRow.selects, encode, flag, BitVec.and_or_distrib_right, field_and_eq_zero]

/-- Where its mask is all ones, a row's value is what the words that select it hold. -/
theorem extractLsb'_of_selects {r : OpcodeRow} {w : Word} {lo n : Nat} (h : r.selects w = true)
    (hmask : r.mask.extractLsb' lo n = BitVec.allOnes n) : w.extractLsb' lo n = r.value.extractLsb' lo n := by
  have hvalue : w &&& r.mask = r.value := eq_of_beq h
  rw [← hvalue, BitVec.extractLsb'_and, hmask, BitVec.and_allOnes]

/-- Every row looks at the whole opcode. -/
theorem mask_opcode : ∀ r ∈ opcodeMap, r.mask.extractLsb' 24 8 = BitVec.allOnes 8 := by decide

theorem opcodeOf_of_selects {r : OpcodeRow} {w : Word} (hr : r ∈ opcodeMap) (h : r.selects w = true) :
    opcodeOf w = opcodeOf r.value := extractLsb'_of_selects h (mask_opcode r hr)

/-- The rows differ in their opcodes. -/
theorem nodup_opcodes : (opcodeMap.map fun r => opcodeOf r.value).Nodup := by decide

theorem eq_of_selects {r r' : OpcodeRow} {w : Word} (hr : r ∈ opcodeMap) (hr' : r' ∈ opcodeMap)
    (h : r.selects w = true) (h' : r'.selects w = true) : r = r' :=
  List.inj_on_of_nodup_map nodup_opcodes hr hr' ((opcodeOf_of_selects hr h).symm.trans (opcodeOf_of_selects hr' h'))

/-- A row that asks for one field of zeros, as all rows do but those of WRL, WRH, SETS and the reserved commands. -/
theorem decodeFields_of_selects_zeros {r : OpcodeRow} {op lo n : Nat} {w : Word} {i : Instr}
    (hdec : decodeFields op w = whenZero w lo n i) (hmask : r.mask.extractLsb' lo n = BitVec.allOnes n)
    (hvalue : r.value.extractLsb' lo n = 0) (h : r.selects w = true) : ∃ i, decodeFields op w = .ok i :=
  ⟨i, hdec.trans (whenZero_eq_ok.2 ⟨(extractLsb'_of_selects h hmask).trans hvalue, rfl⟩)⟩

/-- The row of SETS asks for two fields of zeros. -/
theorem decodeFields_of_selects_sets {w : Word} (h : (opcodeMap[6]).selects w = true) :
    ∃ i, decodeFields 0x06 w = .ok i :=
  ⟨_, ite_error_eq_ok.2 ⟨extractLsb'_of_selects h rfl, whenZero_eq_ok.2 ⟨extractLsb'_of_selects h rfl, rfl⟩⟩⟩

theorem decodeFields_of_selects (w : Word) :
    ∀ r ∈ opcodeMap, r.selects w = true → ∃ i, decodeFields (opcodeOf r.value).toNat w = .ok i := by
  simp only [opcodeMap, List.cons_append, List.nil_append, List.forall_mem_cons]
  have zeros {r op lo n i} := @decodeFields_of_selects_zeros r op lo n w i
  exact ⟨zeros rfl rfl rfl, zeros rfl rfl rfl, fun _ => ⟨_, rfl⟩, fun _ => ⟨_, rfl⟩, zeros rfl rfl rfl,
    zeros rfl rfl rfl, decodeFields_of_selects_sets, zeros rfl rfl rfl, zeros rfl rfl rfl, zeros rfl rfl rfl,
    zeros rfl rfl rfl, zeros rfl rfl rfl, zeros rfl rfl rfl, fun _ => ⟨_, rfl⟩, zeros rfl rfl rfl, zeros rfl rfl rfl,
    zeros rfl rfl rfl, zeros rfl rfl rfl, zeros rfl rfl rfl, zeros rfl rfl rfl, zeros rfl rfl rfl, fun _ => ⟨_, rfl⟩,
    zeros rfl rfl rfl, zeros rfl rfl rfl, zeros rfl rfl rfl, zeros rfl rfl rfl, nofun⟩

theorem decode_accepts_iff_selects (w : Word) :
    (∃ i, decode w = .ok i) ↔ ∃ r ∈ opcodeMap, r.selects w = true := by
  constructor
  · rintro ⟨i, h⟩
    exact ⟨_, List.getElem_mem _, encode_of_decode h ▸ selects_encode i⟩
  · rintro ⟨r, hr, h⟩
    rw [decode, opcodeOf_of_selects hr h]
    exact decodeFields_of_selects w r hr h

/-- Settles O3: the opcode a row's mask fixes tells the rows apart; a decoded word is the word of its command, which its
row selects; and a row that is selected has its bits that must be 0 clear. -/
theorem decoderAcceptsExactlyTheOpcodeMap : Obligations.DecoderAcceptsExactlyTheOpcodeMap :=
  ⟨rfl, fun _ _ hr _ hr' h h' => eq_of_selects hr hr' h h', decode_accepts_iff_selects⟩

/-! ### Format Z -/

theorem toNat_opcodeOf (w : Word) : (opcodeOf w).toNat = (w >>> 24).toNat := by
  rw [opcodeOf, BitVec.extractLsb'_toNat, BitVec.toNat_ushiftRight]
  omega

theorem umod_eq_zero_iff_low (w : Word) : w % 0x1000000 = 0 ↔ w.extractLsb' 0 24 = 0 := by
  rw [BitVec.toNat_eq, BitVec.toNat_eq, BitVec.toNat_umod, BitVec.extractLsb'_toNat]
  rfl

/-- A command of format Z: its opcode with zeros decodes to it, and with another bit set is rejected. -/
theorem decode_formatZ {op : Word} {i : Instr} (henc : encode i = op <<< 24)
    (hdec : ∀ w, decodeFields op.toNat w = whenZero w 0 24 i) :
    encode i = op <<< 24 ∧ ∀ w : Word, w >>> 24 = op →
      (w % 0x1000000 = 0 → decode w = .ok i) ∧ (w % 0x1000000 ≠ 0 → decode w = .error .reservedBitSet) := by
  refine ⟨henc, fun w hop => ?_⟩
  have hw : decode w = whenZero w 0 24 i := by rw [decode, toNat_opcodeOf, hop, hdec]
  rw [hw, ne_eq, umod_eq_zero_iff_low]
  exact ⟨fun hz => if_pos hz, fun hz => if_neg hz⟩

/-- Settles O4, one row of format Z after the other. -/
theorem formatZWordsHaveZeroLowBits : Obligations.FormatZWordsHaveZeroLowBits := by
  simp only [Obligations.FormatZWordsHaveZeroLowBits, List.forall_mem_cons]
  have row {op i} := @decode_formatZ op i
  exact ⟨row rfl fun _ => rfl, row rfl fun _ => rfl, row rfl fun _ => rfl, row rfl fun _ => rfl, row rfl fun _ => rfl,
    row rfl fun _ => rfl, row rfl fun _ => rfl, row rfl fun _ => rfl, row rfl fun _ => rfl, row rfl fun _ => rfl, nofun⟩

/-! ### Stored words -/

theorem wordOfBytes_wordBytes (w : Word) :
    wordOfBytes (w.extractLsb' 0 8) (w.extractLsb' 8 8) (w.extractLsb' 16 8) (w.extractLsb' 24 8) = w := by
  refine eq_of_opcodeOf_of_sameBits ?_
    (SameBits.append (n := 16) (SameBits.append (n := 8) ?_ ?_ rfl) ?_ rfl) <;>
    simp [SameBits, opcodeOf, wordOfBytes, BitVec.extractLsb'_or]

theorem decodeBytes_wordBytes {w : Word} {i : Instr} (h : decode w = .ok i) (rest : List Byte) :
    decodeBytes (wordBytes w ++ rest) = .ok (i, rest) := by
  simp only [wordBytes, List.cons_append, List.nil_append, decodeBytes, wordOfBytes_wordBytes, h]

theorem wordBytes_getElem? (w : Word) (k : Fin 4) :
    (wordBytes w)[k.val]?.map BitVec.toNat = some (w.toNat / 256 ^ k.val % 256) := by
  fin_cases k <;> simp [wordBytes, BitVec.extractLsb'_toNat, Nat.shiftRight_eq_div_pow]

/-- Settles O5: the four bytes put together are the word again, and a command decodes from its word. -/
theorem storedWordsAreLittleEndian : Obligations.StoredWordsAreLittleEndian :=
  ⟨rfl, wordBytes_getElem?, fun i => decodeBytes_wordBytes (decode_encode i)⟩

theorem encode_of_mem_sampleWords : ∀ p ∈ sampleWords, encode p.2 = p.1 := by decide

/-- Settles O6: a command decodes from its word. -/
theorem tableWordsDecode : Obligations.TableWordsDecode :=
  fun p hp => decode_eq_ok_iff.2 (encode_of_mem_sampleWords p hp)

end Sys2Proof
end

section
/-! PROOF. What becomes of the word the sequencer takes (30_encoding.md R101, R104, R105): WR32's two commands, the
step, and the first fault that applies to a command or a word. -/

namespace Sys2Proof.Machine

open Sys2Proof.Claims

/-! ### WR32 (30_encoding.md R101) -/

/-- The registers of 32 bits, those WR32 and WRH take. -/
abbrev wideRegs : List CReg := [.bspMv, .bsqMv, .mcX, .mcY, .refBase, .curBase]

theorem isWideReg_of_mem {r : CReg} (h : r ∈ wideRegs) : isWideReg (BitVec.ofNat 8 (cregNum r)) = true := by
  revert r
  decide

theorem cregOfNum_ofNat_cregNum (r : CReg) : cregOfNum (BitVec.ofNat 8 (cregNum r)).toNat = some r := by
  cases r <;> rfl

/-- Any 32-bit value fits WR32's operand. -/
theorem asmField_toNat (v : Word) : asmField 32 (v.toNat : Int) = some v := by
  have hv := v.isLt
  rw [asmField, if_pos (by omega), BitVec.ofInt_natCast, BitVec.ofNat_toNat, BitVec.setWidth_eq]

theorem assemble_wr32 {r : CReg} (hr : r ∈ wideRegs) (v : Word) :
    assemble (.wr32 (.name r) v.toNat) = some [.wrl (BitVec.ofNat 8 (cregNum r)) (v.extractLsb' 0 16),
      .wrh (BitVec.ofNat 8 (cregNum r)) (v.extractLsb' 16 16)] := by
  simp [assemble, asmReg, asmField_toNat, isWideReg_of_mem hr]

theorem exec_wrl_of_writeLow {r : CReg} {imm : BitVec 16} {s : State} {g : CtrlRegs}
    (h : s.regs.writeLow r imm = some g) :
    exec (.wrl (BitVec.ofNat 8 (cregNum r)) imm) s = .next (s.withRegs g).complete := by
  simp only [exec, execWrl, cregOfNum_ofNat_cregNum, Option.bind_some, h]

theorem exec_wrh_of_writeHigh {r : CReg} {imm : BitVec 16} {s : State} {g : CtrlRegs}
    (h : s.regs.writeHigh r imm = some g) :
    exec (.wrh (BitVec.ofNat 8 (cregNum r)) imm) s = .next (s.withRegs g).complete := by
  simp only [exec, execWrh, cregOfNum_ofNat_cregNum, Option.bind_some, h]

/-- WRL clears the high half of a 32-bit register (40_control_data.md R112). -/
theorem CtrlRegs.writeLow_wide {r : CReg} (hr : r ∈ wideRegs) (g : CtrlRegs) (imm : BitVec 16) :
    ∃ g', g.writeLow r imm = some g' ∧ g'.read r = imm.setWidth 32 := by
  cases r with
  | bspMv | bsqMv | mcX | mcY | refBase | curBase => exact ⟨_, rfl, rfl⟩
  | _ => simp at hr

/-- WRH keeps the low half of a 32-bit register (40_control_data.md R113). -/
theorem CtrlRegs.writeHigh_wide {r : CReg} (hr : r ∈ wideRegs) (g : CtrlRegs) (imm : BitVec 16) :
    ∃ g', g.writeHigh r imm = some g' ∧ g'.read r = withHigh (g.read r) imm := by
  cases r with
  | bspMv | bsqMv | mcX | mcY | refBase | curBase => exact ⟨_, rfl, rfl⟩
  | _ => simp at hr

/-- The two halves of a value, put together again. -/
theorem withHigh_low_high (v : Word) : withHigh ((v.extractLsb' 0 16).setWidth 32) (v.extractLsb' 16 16) = v := by
  apply BitVec.eq_of_getLsbD_eq
  intro k hk
  rw [withHigh, BitVec.getLsbD_or, getLsbD_field, getLsbD_field]
  by_cases h : 16 ≤ k
  · have hhigh : k - 16 < 16 := by omega
    simp [h, hhigh, hk]
  · have hlow : k < 16 := by omega
    simp [hlow, hk]

/-- Settles O7: WRL leaves the low half extended with zeros, WRH puts the high half above it, and each writes only the
register it names. -/
theorem wr32LoadsAWideRegister : Obligations.Wr32LoadsAWideRegister := by
  intro r v s hr
  obtain ⟨g, hlow, hreadLow⟩ := CtrlRegs.writeLow_wide hr s.regs (v.extractLsb' 0 16)
  obtain ⟨g', hhigh, hreadHigh⟩ := CtrlRegs.writeHigh_wide hr g (v.extractLsb' 16 16)
  obtain ⟨-, hsame⟩ := CtrlRegs.sameExcept_writeHigh hhigh
  refine ⟨_, _, _, _, assemble_wr32 hr v, exec_wrl_of_writeLow hlow, exec_wrh_of_writeHigh hhigh, ?_, ?_, ?_⟩
  · exact hreadHigh.trans (by rw [hreadLow, withHigh_low_high])
  · exact fun r' hne => (hsame r' hne).trans (CtrlRegs.sameExcept_writeLow hlow r' hne)
  · have hcix : s.cix + 1 + 1 = s.cix + 2 := by rw [BitVec.add_assoc]; rfl
    rw [← hcix]
    rfl

/-! ### The step -/

theorem step_of_decode_ok {s : State} {w : Word} {rest : List Word} {i : Instr} (hrun : s.status = .run)
    (hq : s.queue = w :: rest) (h : decode w = .ok i) : step s = exec i { s with queue := rest } := by
  simp only [step, fetch_eq_some hrun hq, h]

theorem step_of_decode_error {s : State} {w : Word} {rest : List Word} {e : DecodeError} (hrun : s.status = .run)
    (hq : s.queue = w :: rest) (h : decode w = .error e) :
    step s = .next (faulted { s with queue := rest } .parseError w) := by
  simp only [step, fetch_eq_some hrun hq, h]
  rfl

theorem step_of_not_enabled {s : State} (h : s.status ≠ .run ∨ s.queue = []) : step s = .next s := by
  simp only [step, fetch_eq_none h]

/-- Settles O8, by what is taken from the queue and what it decodes to. -/
theorem stepRunsTheDecodedCommand : Obligations.StepRunsTheDecodedCommand :=
  ⟨fun _ _ _ _ => step_of_decode_ok, fun _ _ _ _ => step_of_decode_error, fun _ => step_of_not_enabled⟩

/-! ### The fault of a command (30_encoding.md R105) -/

/-- Command `i` raises the fault `c`, or completes where `c` is none. -/
def RaisesOrCompletes (i : Instr) (s : State) (c : FaultCause) : Prop :=
  (c ≠ .none ∧ exec i s = raise c i s) ∨ (c = .none ∧ ∃ t, exec i s = .next t ∧ t.cix = s.cix + 1)

theorem raisesOrCompletes_endCmd (s : State) : RaisesOrCompletes .endCmd s .none :=
  .inr ⟨rfl, _, exec_endCmd s, rfl⟩

theorem DataUpdate.raisesOrCompletes {i : Instr} {s u : State} (hu : DataUpdate s u)
    (h : exec i s = .next u.complete) : RaisesOrCompletes i s .none :=
  .inr ⟨rfl, u.complete, h, by rw [hu.complete_eq]⟩

/-- A command that raises ParseError where a field is illegal and completes elsewhere. -/
theorem raisesOrCompletes_wellFormed {i : Instr} {s : State}
    (hbad : i.wellFormed = false → exec i s = raise .parseError i s)
    (hok : i.wellFormed = true → RaisesOrCompletes i s .none) :
    RaisesOrCompletes i s (if i.wellFormed then .none else .parseError) := by
  cases hwf : i.wellFormed with
  | true => exact hok hwf
  | false => exact .inl ⟨by decide, hbad hwf⟩

/-- A command that writes the registers `o`, where its fields are legal: WRL, WRH and CQP. -/
theorem raisesOrCompletes_of_regs {i : Instr} {s : State} {o : Option CtrlRegs} (hlegal : o.isSome = i.wellFormed)
    (hnone : o = none → exec i s = raise .parseError i s)
    (hsome : ∀ g, o = some g → exec i s = .next (s.withRegs g).complete) :
    RaisesOrCompletes i s (if i.wellFormed then .none else .parseError) := by
  refine raisesOrCompletes_wellFormed (fun hwf => hnone ?_) (fun hwf => ?_)
  · exact Option.isNone_iff_eq_none.1 (Option.isSome_eq_false_iff.1 (hlegal.trans hwf))
  · obtain ⟨g, hg⟩ := Option.isSome_iff_exists.1 (hlegal.trans hwf)
    exact (DataUpdate.regs g).raisesOrCompletes (hsome g hg)

theorem wrl_raisesOrCompletes (idx : BitVec 8) (imm : BitVec 16) (s : State) :
    RaisesOrCompletes (.wrl idx imm) s (faultOf (.wrl idx imm) s) :=
  raisesOrCompletes_of_regs (writeLow_isSome idx imm s.regs) (fun h => by simp only [exec, execWrl, h])
    (fun g h => by simp only [exec, execWrl, h])

theorem wrh_raisesOrCompletes (idx : BitVec 8) (imm : BitVec 16) (s : State) :
    RaisesOrCompletes (.wrh idx imm) s (faultOf (.wrh idx imm) s) :=
  raisesOrCompletes_of_regs (writeHigh_isSome idx imm s.regs) (fun h => by simp only [exec, execWrh, h])
    (fun g h => by simp only [exec, execWrh, h])

theorem cqp_raisesOrCompletes (src dst : BitVec 2) (plane : Bool) (s : State) :
    RaisesOrCompletes (.cqp src dst plane) s (faultOf (.cqp src dst plane) s) :=
  raisesOrCompletes_of_regs (cqp_isSome src dst (fun q => chromaQp s.cfg q (chromaOffset plane s.regs)) s.regs)
    (fun h => by simp only [exec, execCqp, h]) (fun g h => by simp only [exec, execCqp, h])

theorem qpadd_wellFormed_eq_false_iff (delta : BitVec 8) :
    (Instr.qpadd delta).wellFormed = false ↔ delta.toInt < -26 ∨ delta.toInt > 25 := by
  rw [Instr.wellFormed, Bool.and_eq_false_iff, decide_eq_false_iff_not, decide_eq_false_iff_not, not_le, not_le]

theorem qpadd_raisesOrCompletes (delta : BitVec 8) (s : State) :
    RaisesOrCompletes (.qpadd delta) s (faultOf (.qpadd delta) s) := by
  have hillegal := qpadd_wellFormed_eq_false_iff delta
  refine raisesOrCompletes_wellFormed (fun hwf => if_pos (hillegal.1 hwf)) (fun hwf => ?_)
  exact (DataUpdate.regs _).raisesOrCompletes (if_neg fun h => absurd (hillegal.2 h) (by simp [hwf]))

theorem legalSize_iff {hc wc : BitVec 2} (h : ¬(wc = 3 ∨ hc = 3)) :
    LegalSize hc wc ↔ (sideLength 4 wc, sideLength 4 hc) ∈ lumaShapes := by
  revert hc wc
  decide

/-- The checks of MCL are the statements' (43_interp.md R175, R179). -/
theorem mcFault_luma (hc wc : BitVec 2) (s : State) : mcFault lumaShapes 4 hc wc s = faultOf (.mcl hc wc) s := by
  by_cases h : wc = 3 ∨ hc = 3
  · simp only [mcFault, faultOf, if_pos h]
  · simp only [mcFault, faultOf, if_neg h, legalSize_iff h, ← planeOk_refPlane_iff, Bool.not_eq_true]

/-- MCC makes the checks of MCL (43_interp.md R177, R179). -/
theorem mcFault_chroma (hc wc : BitVec 2) (s : State) : mcFault chromaShapes 2 hc wc s = faultOf (.mcc hc wc) s := by
  refine Eq.trans ?_ (mcFault_luma hc wc s)
  by_cases h : wc = 3 ∨ hc = 3
  · simp only [mcFault, if_pos h]
  · have hshape := shape_mem_iff (fun hh => h (.inr hh)) (fun hw => h (.inl hw))
    simp only [mcFault, if_neg h, hshape]

theorem mcl_raisesOrCompletes (hc wc : BitVec 2) (s : State) :
    RaisesOrCompletes (.mcl hc wc) s (faultOf (.mcl hc wc) s) := by
  rw [← mcFault_luma]
  simp only [RaisesOrCompletes, exec, execMcl]
  split
  · refine .inr ⟨‹_›, _, rfl, ?_⟩
    rw [State.complete_cix, State.withPred_cix]
  · exact .inl ⟨‹_›, rfl⟩

theorem mcc_raisesOrCompletes (hc wc : BitVec 2) (s : State) :
    RaisesOrCompletes (.mcc hc wc) s (faultOf (.mcc hc wc) s) := by
  rw [← mcFault_chroma]
  simp only [RaisesOrCompletes, exec, execMcc]
  split
  · refine .inr ⟨‹_›, _, rfl, ?_⟩
    rw [State.complete_cix, State.withPred_cix]
  · exact .inl ⟨‹_›, rfl⟩

/-- A command that makes the checks of a line, LDLN and STLN (44_deblock.md R199). -/
theorem raisesOrCompletes_of_line {i : Instr} {s u : State} {dir : Bool}
    (h : exec i s = if lineOk dir s then .next u.complete else raise .bufferSizeError i s)
    (hu : DataUpdate s u) :
    RaisesOrCompletes i s (if LineFits dir s then .none else .bufferSizeError) := by
  by_cases hok : lineOk dir s = true
  · rw [if_pos ((lineOk_iff dir s).1 hok)]
    exact hu.raisesOrCompletes (h.trans (if_pos hok))
  · rw [if_neg (mt (lineOk_iff dir s).2 hok)]
    exact .inl ⟨by decide, h.trans (if_neg hok)⟩

/-- Every command raises the first fault that applies, or completes where none does. -/
theorem exec_raisesOrCompletes (i : Instr) (s : State) : RaisesOrCompletes i s (faultOf i s) := by
  cases i with
  | endCmd => exact raisesOrCompletes_endCmd s
  | nop => exact DataUpdate.none.raisesOrCompletes rfl
  | setc | clrc | zigzag | idct4 | ihad4 | ihad2 | mrgdc | dqac | dqdcl | dqdcc =>
    exact (DataUpdate.coef _).raisesOrCompletes rfl
  | mvdc => exact (DataUpdate.dc _).raisesOrCompletes rfl
  | sets | dbl => exact (DataUpdate.line _).raisesOrCompletes rfl
  | bs => exact (DataUpdate.regs _).raisesOrCompletes rfl
  | idct8 | mcbi => exact .inl ⟨nofun, rfl⟩
  | wrl idx imm => exact wrl_raisesOrCompletes idx imm s
  | wrh idx imm => exact wrh_raisesOrCompletes idx imm s
  | qpadd delta => exact qpadd_raisesOrCompletes delta s
  | cqp src dst plane => exact cqp_raisesOrCompletes src dst plane s
  | mcl hc wc => exact mcl_raisesOrCompletes hc wc s
  | mcc hc wc => exact mcc_raisesOrCompletes hc wc s
  | ldln dir => exact raisesOrCompletes_of_line rfl (DataUpdate.line _)
  | stln dir => exact raisesOrCompletes_of_line rfl (dataUpdate_storeLine dir s)

theorem exec_of_faultOf_ne_none {i : Instr} {s : State} (h : faultOf i s ≠ .none) :
    exec i s = .next (faulted s (faultOf i s) (encode i)) := by
  obtain ⟨-, hraise⟩ | ⟨hnone, -⟩ := exec_raisesOrCompletes i s
  · exact hraise.trans (raise_eq_faulted _ i s)
  · exact absurd hnone h

/-- A command to which no fault applies completes: of the two outcomes only this one advances `CIX`. -/
theorem exec_of_faultOf_eq_none {i : Instr} {s : State} (h : faultOf i s = .none) :
    ∃ t, exec i s = .next t ∧ t.cix = s.cix + 1 ∧ t.faultCause = s.faultCause ∧ t.faultCmd = s.faultCmd ∧
      t.faultCix = s.faultCix ∧ (i ≠ .endCmd → t.status = s.status) := by
  obtain ⟨hfault, -⟩ | ⟨-, t, ht, hcix⟩ := exec_raisesOrCompletes i s
  · exact absurd h hfault
  obtain ⟨c, -, hc⟩ | ⟨t', ht', hcix', hcause, hcmd, hfcix, hstatus, -⟩ := commandsFaultPreciselyOrComplete i s
  · obtain rfl := Host.Outcome.next.inj (ht.symm.trans hc)
    exact absurd hcix (by simp [faulted])
  · exact ⟨t', ht', hcix', hcause, hcmd, hfcix, hstatus⟩

/-- A command in RUN to which no fault applies leaves the block in RUN, END in DONE (10_state.md R41). -/
theorem status_of_faultOf_eq_none {i : Instr} {s t : State} (hrun : s.status = .run) (ht : exec i s = .next t)
    (hstatus : i ≠ .endCmd → t.status = s.status) : t.status ≠ .fault := by
  by_cases hi : i = .endCmd
  · subst hi
    obtain rfl := Host.Outcome.next.inj ht
    simp
  · rw [hstatus hi, hrun]
    decide

/-- MCL and MCC are ill formed where a size code is 3. -/
theorem sizeCodes_wellFormed_eq_false_iff (hc wc : BitVec 2) :
    (wc != 3 && hc != 3) = false ↔ wc = 3 ∨ hc = 3 := by
  rw [Bool.and_eq_false_iff, bne_eq_false_iff_eq, bne_eq_false_iff_eq]

/-- ParseError is the fault of a command exactly where a field is illegal (60_exceptions.md R221). -/
theorem faultOf_eq_parseError_iff (i : Instr) (s : State) : faultOf i s = .parseError ↔ i.wellFormed = false := by
  cases i with
  | mcl hc wc | mcc hc wc =>
    simp only [faultOf, Instr.wellFormed, sizeCodes_wellFormed_eq_false_iff]
    split_ifs <;> simp only [*]
  | ldln dir | stln dir =>
    simp only [faultOf, Instr.wellFormed]
    split_ifs <;> simp
  | wrl | wrh | qpadd | cqp =>
    simp only [faultOf]
    split_ifs <;> simp_all
  | _ => simp [faultOf, Instr.wellFormed]

/-- Settles O12: the first fault that applies is ParseError exactly where a field is illegal, and a command that
completes keeps the cause. -/
theorem parseErrorDependsOnTheWordAlone : Obligations.ParseErrorDependsOnTheWordAlone := by
  refine fun i s => ⟨fun hwf => ?_, fun hwf hcause => ?_⟩
  · have hparse := (faultOf_eq_parseError_iff i s).2 hwf
    have hexec := exec_of_faultOf_ne_none (i := i) (s := s) (by rw [hparse]; decide)
    rwa [hparse] at hexec
  · by_cases hnone : faultOf i s = .none
    · obtain ⟨t, ht, -, hkeep, -⟩ := exec_of_faultOf_eq_none hnone
      exact ⟨t, ht, hkeep ▸ hcause⟩
    · have hparse : faultOf i s ≠ .parseError := by simp [faultOf_eq_parseError_iff, hwf]
      exact ⟨_, exec_of_faultOf_ne_none hnone, hparse⟩

/-! ### The fault of a word (30_encoding.md R105) -/

/-- The two reserved opcodes decode, whatever the low bits, to the commands that always raise UnsupportedFeatureError
(30_encoding.md R105 step 1). -/
theorem decode_reserved {w : Word} (h : w >>> 24 = 0x18 ∨ w >>> 24 = 0x38) :
    ∃ i, decode w = .ok i ∧ ∀ s, faultOf i s = .unsupportedFeatureError := by
  rw [decode, toNat_opcodeOf]
  obtain hop | hop := h <;> rw [hop]
  · exact ⟨_, rfl, fun _ => rfl⟩
  · exact ⟨_, rfl, fun _ => rfl⟩

theorem faultOfWord_of_decode_ok {w : Word} {i : Instr} (h : decode w = .ok i) (s : State) :
    faultOfWord w s = faultOf i s := by
  by_cases hres : w >>> 24 = 0x18 ∨ w >>> 24 = 0x38
  · obtain ⟨j, hj, hfault⟩ := decode_reserved hres
    obtain rfl := Except.ok.inj (h.symm.trans hj)
    rw [faultOfWord, if_pos hres, hfault]
  · simp only [faultOfWord, if_neg hres, h]

theorem faultOfWord_of_decode_error {w : Word} {e : DecodeError} (h : decode w = .error e) (s : State) :
    faultOfWord w s = .parseError := by
  have hres : ¬(w >>> 24 = 0x18 ∨ w >>> 24 = 0x38) := fun hres => by
    obtain ⟨j, hj, -⟩ := decode_reserved hres
    cases h.symm.trans hj
  simp only [faultOfWord, if_neg hres, h]

/-- The checks of a command do not look at the queue. -/
theorem faultOf_queue (i : Instr) (s : State) (q : List Word) : faultOf i { s with queue := q } = faultOf i s := rfl

/-- Settles O9: the fault of the word is that of its command, or ParseError where it is none, and the command raises the
first fault that applies or completes. -/
theorem firstApplicableFaultIsTaken : Obligations.FirstApplicableFaultIsTaken := by
  intro s w rest hrun hq
  cases hdec : decode w with
  | error e =>
    rw [faultOfWord_of_decode_error hdec]
    exact ⟨fun _ => step_of_decode_error hrun hq hdec, nofun⟩
  | ok i =>
    rw [faultOfWord_of_decode_ok hdec, step_of_decode_ok hrun hq hdec, ← faultOf_queue i s rest]
    refine ⟨fun hfault => ?_, fun hnone => ?_⟩
    · rw [exec_of_faultOf_ne_none hfault, encode_of_decode hdec]
    · obtain ⟨t, ht, hcix, hcause, hcmd, hfcix, hstatus⟩ := exec_of_faultOf_eq_none hnone
      have hnotFault := status_of_faultOf_eq_none (s := { s with queue := rest }) hrun ht hstatus
      exact ⟨i, t, rfl, ht, ht, hcix, hcause, hcmd, hfcix, hnotFault⟩

end Sys2Proof.Machine
end

section
/-! PROOF. The control and data-movement commands (40_control_data.md R110 to R116): what a written control register
reads as, and from it WRL and WRH; what a written entry of `C` or `S` holds, and from it SETC, CLRC and SETS. -/

namespace Sys2Proof.Machine

open Sys2Proof.Claims

/-! ### A stored immediate reads back extended -/

/-- An immediate that fits the stored width reads back zero-extended (30_encoding.md R94). -/
theorem setWidth_setWidth_of_le {n k : Nat} {imm : BitVec 16} (h : imm.toNat ≤ k) (hk : k < 2 ^ n) :
    (imm.setWidth n).setWidth 32 = imm.setWidth 32 := by
  apply BitVec.eq_of_toNat_eq
  rw [BitVec.toNat_setWidth, BitVec.toNat_setWidth, Nat.mod_eq_of_lt (a := imm.toNat) (by omega),
    ← BitVec.toNat_setWidth]

/-- A signed immediate in a range that the stored width holds reads back sign-extended (30_encoding.md R94). -/
theorem signExtend_setWidth_of_range {n : Nat} {imm : BitVec 16} {lo hi : Int} (h : lo ≤ imm.toInt ∧ imm.toInt ≤ hi)
    (hn : n ≤ 16) (hlo : -(2 ^ n / 2) ≤ lo) (hhi : hi < (2 ^ n + 1) / 2) :
    (imm.setWidth n).signExtend 32 = imm.signExtend 32 := by
  obtain ⟨hge, hle⟩ := toInt_setWidth_of_range ⟨le_rfl, le_rfl⟩ hn (hlo.trans h.1) (h.2.trans_lt hhi)
  have hstored : (imm.setWidth n).toInt = imm.toInt := le_antisymm hle hge
  apply BitVec.eq_of_toInt_eq
  rw [BitVec.toInt_signExtend_of_le (by omega), BitVec.toInt_signExtend_of_le (by decide), hstored]

/-- The register WRL writes reads as the immediate, extended as the register's row says (10_state.md R26,
40_control_data.md R112). -/
theorem CtrlRegs.read_writeLow {g g' : CtrlRegs} {r : CReg} {imm : BitVec 16} (h : g.writeLow r imm = some g') :
    g'.read r = if isSigned r then imm.signExtend 32 else imm.setWidth 32 := by
  cases r with
  | dbX | dbY | refStride | refW | refH | curStride | curW | curH | bspMv | bsqMv | mcX | mcY | refBase | curBase =>
    obtain rfl := Option.some.inj h
    rfl
  | bspInfo | bsqInfo =>
    obtain ⟨-, ⟨⟩⟩ := Option.ite_none_left_eq_some.1 h
    rfl
  | qpy | qpc | dbQpp | dbQpq | dbBs | refValid =>
    obtain ⟨hv, ⟨⟩⟩ := Option.ite_none_left_eq_some.1 h
    exact setWidth_setWidth_of_le (not_lt.1 hv) (by decide)
  | cqpoCb | cqpoCr | alphaOff | betaOff =>
    obtain ⟨hv, ⟨⟩⟩ := Option.ite_none_left_eq_some.1 h
    obtain ⟨hlo, hhi⟩ := not_or.1 hv
    exact signExtend_setWidth_of_range ⟨not_lt.1 hlo, not_lt.1 hhi⟩ (by decide) (by decide) (by decide)

/-! ### A replaced high half -/

/-- The value `{ imm16, v[15:0] }` of 40_control_data.md R113 as a number. -/
theorem toNat_withHigh (v : Word) (imm : BitVec 16) : (withHigh v imm).toNat = imm.toNat * 65536 + v.toNat % 65536 := by
  have hlow : v.toNat % 2 ^ 16 < 2 ^ 16 := Nat.mod_lt _ (by decide)
  have hhigh : (field 16 imm).toNat = imm.toNat <<< 16 := by
    simp only [field, BitVec.toNat_shiftLeft, BitVec.toNat_setWidth, Nat.shiftLeft_eq]
    have himm := imm.isLt
    omega
  have hkept : (field 0 (v.extractLsb' 0 16)).toNat = v.toNat % 2 ^ 16 := by
    simp only [field, BitVec.shiftLeft_zero, BitVec.toNat_setWidth, BitVec.extractLsb'_toNat, Nat.shiftRight_zero]
    omega
  rw [withHigh, BitVec.toNat_or, hhigh, hkept, ← Nat.shiftLeft_add_eq_or_of_lt hlow, Nat.shiftLeft_eq]
  norm_num

/-! ### WRL and WRH -/

/-- A completed write of the control registers changes nothing but them and `CIX`. -/
theorem State.withRegs_complete_eq (s : State) (g : CtrlRegs) :
    (s.withRegs g).complete = { s with regs := (s.withRegs g).complete.regs, cix := s.cix + 1 } := rfl

/-- Settles O19: a legal WRL names a register and writes it, which then reads as the extended immediate, and no other. -/
theorem wrlLoadsTheNamedRegister : Obligations.WrlLoadsTheNamedRegister := by
  intro idx imm s hlegal
  obtain ⟨g, hg⟩ := Option.isSome_iff_exists.1 ((writeLow_isSome idx imm s.regs).trans hlegal)
  obtain ⟨r, hr, hwrite⟩ := Option.bind_eq_some_iff.1 hg
  obtain rfl := eq_ofNat_cregNum hr
  exact ⟨r, _, hr, exec_wrl_of_writeLow hwrite, CtrlRegs.read_writeLow hwrite, CtrlRegs.sameExcept_writeLow hwrite,
    State.withRegs_complete_eq s g⟩

/-- Settles O20: a legal WRH names one of the six 32-bit registers, replaces its high half and writes no other. -/
theorem wrhReplacesTheHighHalf : Obligations.WrhReplacesTheHighHalf := by
  intro idx imm s hlegal
  obtain ⟨g, hg⟩ := Option.isSome_iff_exists.1 ((writeHigh_isSome idx imm s.regs).trans hlegal)
  obtain ⟨r, hr, hwrite⟩ := Option.bind_eq_some_iff.1 hg
  obtain rfl := eq_ofNat_cregNum hr
  obtain ⟨hwide, hsame⟩ := CtrlRegs.sameExcept_writeHigh hwrite
  obtain ⟨g', hwrite', hread⟩ := CtrlRegs.writeHigh_wide hwide s.regs imm
  obtain rfl : g = g' := Option.some.inj (hwrite.symm.trans hwrite')
  have hvalue : (g.read r).toNat = imm.toNat * 65536 + (s.regs.read r).toNat % 65536 := by rw [hread, toNat_withHigh]
  exact ⟨r, _, hr, exec_wrh_of_writeHigh hwrite, hvalue, hsame, State.withRegs_complete_eq s g⟩

/-! ### NOP and END -/

/-- NOP completes and does nothing else (40_control_data.md R110). -/
theorem exec_nop (s : State) : exec .nop s = .next s.complete := rfl

/-- Settles O18: NOP completes, END completes with `STATE` at DONE, and DONE is not RUN. -/
theorem nopAndEndResults : Obligations.NopAndEndResults :=
  fun s => ⟨exec_nop s, exec_endCmd s, (irqIsStateNotRun _).2 nofun⟩

/-! ### SETC, CLRC and SETS -/

theorem exec_setc (n : BitVec 4) (imm : BitVec 16) (s : State) :
    exec (.setc n imm) s = .next (s.withCoef (s.coef.set n.toNat (imm.signExtend 32) n.isLt)).complete := rfl

theorem exec_clrc (s : State) : exec .clrc s = .next (s.withCoef (Vector.replicate 16 0)).complete := rfl

theorem exec_sets (n : BitVec 3) (imm : BitVec 8) (s : State) :
    exec (.sets n imm) s = .next (s.withLine (s.line.set n.toNat imm n.isLt)).complete := rfl

/-- An entry after one entry was written: the written one holds the value, the others what they held. -/
theorem getElem_set_fin {α : Type} {m n : Nat} (xs : Vector α m) (x : α) (hn : n < m) (k : Fin m) :
    (xs.set n x hn)[k] = if k.val = n then x else xs[k] := by
  simp only [Fin.getElem_fin, Vector.getElem_set, eq_comm]

/-- Settles O21: each command completes with one file replaced, and an entry of that file is the written value where the
command names it. -/
theorem entryWritesChangeOneEntry : Obligations.EntryWritesChangeOneEntry := by
  refine ⟨fun n imm s => ⟨_, exec_setc n imm s, rfl, fun k => ?_⟩, fun s => ⟨_, exec_clrc s, rfl, fun k => ?_⟩,
    fun n imm s => ⟨_, exec_sets n imm s, rfl, fun k => ?_⟩⟩
  · rw [State.complete_coef, State.withCoef_coef, getElem_set_fin, apply_ite BitVec.toInt,
      BitVec.toInt_signExtend_of_le (by decide)]
  · exact Vector.getElem_replicate k.isLt
  · exact getElem_set_fin s.line imm n.isLt k

end Sys2Proof.Machine
end

section
/-! PROOF. The transform commands (41_transform.md R131 to R138): the 32-bit operations as wrapped integer operations,
and from them the inverse transform and the bound below which it does not wrap; the permutation of ZIGZAG, the two Hadamard
transforms, the moves of `DC` entries and the reserved commands. -/

namespace Sys2Proof.Machine

open Sys2Proof.Claims

/-! ### The commands' meanings -/

theorem exec_zigzag (s : State) :
    exec .zigzag s = .next (s.withCoef (inverseZigzag s.cfg.zigzag4x4 s.coef)).complete := rfl

theorem exec_idct4 (s : State) : exec .idct4 s = .next (s.withCoef (idct4 s.coef)).complete := rfl

theorem exec_ihad4 (s : State) : exec .ihad4 s = .next (s.withCoef (inverseHadamard4 s.coef)).complete := rfl

theorem exec_ihad2 (s : State) : exec .ihad2 s = .next (s.withCoef (inverseHadamard2 s.coef)).complete := rfl

theorem exec_mvdc (s : State) : exec .mvdc s = .next (s.withDc s.coef).complete := rfl

theorem exec_mrgdc (k : BitVec 4) (s : State) :
    exec (.mrgdc k) s = .next (s.withCoef (s.coef.set 0 (s.dc[k.toNat]'k.isLt))).complete := rfl

/-- A completed replacement of `C` changes nothing but it and `CIX` (41_transform.md R138 e). -/
theorem State.withCoef_complete_eq (s : State) (b : Block) :
    (s.withCoef b).complete = { s with coef := (s.withCoef b).complete.coef, cix := s.cix + 1 } := rfl

/-! ### Coefficient arithmetic on integers (00_scope.md R10, R11) -/

theorem toInt_add_eq_wrapInt (a b : Coef) : (a + b).toInt = wrapInt (a.toInt + b.toInt) := BitVec.toInt_add a b

theorem toInt_sub_eq_wrapInt (a b : Coef) : (a - b).toInt = wrapInt (a.toInt - b.toInt) := BitVec.toInt_sub

/-- The arithmetic shift rounds toward minus infinity, as the integer division does (00_scope.md R11). -/
theorem toInt_sshiftRight_eq_div (a : Coef) (n : Nat) : (a.sshiftRight n).toInt = a.toInt / (2 ^ n : Nat) := by
  rw [BitVec.toInt_sshiftRight, Int.shiftRight_eq_div_pow]

/-- A wrap inside a sum is absorbed by the wrap of the sum. -/
@[simp] theorem wrapInt_wrapInt_add (a b : Int) : wrapInt (wrapInt a + b) = wrapInt (a + b) := Int.bmod_add_bmod

@[simp] theorem wrapInt_wrapInt_sub (a b : Int) : wrapInt (wrapInt a - b) = wrapInt (a - b) := Int.bmod_sub_bmod

/-- An integer of the signed 32-bit range does not wrap. -/
theorem wrapInt_of_abs_lt {v : Int} (h : |v| < 2 ^ 31) : wrapInt v = v := by
  obtain ⟨hlo, hhi⟩ := abs_lt.1 h
  exact Int.bmod_eq_of_le (by omega) (by omega)

/-! ### ZIGZAG (41_transform.md R131) -/

/-- Writes of entries in a row at places that differ: a place in the list holds its own value, any other what it held. -/
theorem getElem_foldl_set {α β : Type} [DecidableEq α] {m : Nat} {place : α → Fin m} (hplace : place.Injective)
    (value : α → β) (ks : List α) (xs : Vector β m) (k : α) :
    (ks.foldl (fun t j => t.set (place j).val (value j) (place j).isLt) xs)[place k] =
      if k ∈ ks then value k else xs[place k] := by
  induction ks generalizing xs with
  | nil => rfl
  | cons j rest ih =>
    have hsame : (place k).val = (place j).val ↔ k = j := Fin.val_inj.trans hplace.eq_iff
    rw [List.foldl_cons, ih, getElem_set_fin]
    by_cases hj : k = j
    · simp [hj]
    · simp [hsame, hj]

/-- A table without repeated entries names different places for different scan positions. -/
theorem injective_of_nodup_toList {α : Type} {m : Nat} {table : Vector α m} (h : table.toList.Nodup) :
    (fun k : Fin m => table[k]).Injective := by
  intro j k hjk
  have hlist : table.toList[j.val]'(by simp) = table.toList[k.val]'(by simp) := by
    simpa only [Vector.getElem_toList, Fin.getElem_fin] using hjk
  exact Fin.ext (h.getElem_inj_iff.1 hlist)

/-- Settles O22: the table's places differ, and every scan position is among those written. -/
theorem zigzagPermutesTheBlock : Obligations.ZigzagPermutesTheBlock := by
  intro s hnodup
  refine ⟨_, exec_zigzag s, fun k => ?_, State.withCoef_complete_eq s _⟩
  exact (getElem_foldl_set (injective_of_nodup_toList hnodup) (fun j => s.coef[j]) _ s.coef k).trans
    (if_pos (List.mem_finRange k))

/-! ### IDCT4 (41_transform.md R132) -/

/-- The pass on coefficients is the pass on integers that wraps after every `+` and `-`. -/
theorem toInt_butterfly (d0 d1 d2 d3 : Coef) (k : Fin 4) :
    (butterfly d0 d1 d2 d3 k).toInt = idctPass wrapInt d0.toInt d1.toInt d2.toInt d3.toInt k := by
  match k with
  | 0 | 1 | 2 | 3 =>
    simp only [butterfly, idctPass, toInt_add_eq_wrapInt, toInt_sub_eq_wrapInt, toInt_sshiftRight_eq_div]
    rfl

theorem Block.at_idctRound (b : Block) (i j : Fin 4) :
    Block.at (idctRound b) i j = (Block.at b i j + 32).sshiftRight 6 := by
  simp [Block.at, idctRound]

/-- The rounding on integers: `(h + 32) >> 6` with its one wrap. -/
theorem toInt_at_idctRound (b : Block) (i j : Fin 4) :
    (Block.at (idctRound b) i j).toInt = wrapInt ((Block.at b i j).toInt + 32) / 64 := by
  rw [Block.at_idctRound, toInt_sshiftRight_eq_div, toInt_add_eq_wrapInt]
  rfl

/-- The two passes and the rounding, entry by entry. -/
theorem toInt_at_idct4 (b : Block) (i j : Fin 4) :
    (Block.at (idct4 b) i j).toInt = idct wrapInt (fun r k => (Block.at b r k).toInt) i j := by
  simp only [idct4, toInt_at_idctRound, idctCols, idctRows, Block.at_make, toInt_butterfly, idct]

/-- Settles O23: IDCT4 replaces `C` by the two passes and the rounding. -/
theorem idctMatchesThePseudocode : Obligations.IdctMatchesThePseudocode :=
  fun s => ⟨_, exec_idct4 s, State.withCoef_complete_eq s _, toInt_at_idct4 s.coef⟩

/-! ### The range in which IDCT4 does not wrap (41_transform.md R138 c) -/

/-- A pass multiplies the largest magnitude by at most 4, and where four times that magnitude fits 32 bits, no sum or
difference of the pass wraps. -/
theorem idctPass_of_abs_le {d0 d1 d2 d3 B : Int} (h0 : |d0| ≤ B) (h1 : |d1| ≤ B) (h2 : |d2| ≤ B) (h3 : |d3| ≤ B)
    (hB : 4 * B < 2 ^ 31) (k : Fin 4) :
    idctPass wrapInt d0 d1 d2 d3 k = idctPass id d0 d1 d2 d3 k ∧ |idctPass id d0 d1 d2 d3 k| ≤ 4 * B := by
  rw [abs_le] at h0 h1 h2 h3
  have he0 : |d0 + d2| ≤ 2 * B := abs_le.2 (by omega)
  have he1 : |d0 - d2| ≤ 2 * B := abs_le.2 (by omega)
  have he2 : |d1 / 2 - d3| ≤ 2 * B := abs_le.2 (by omega)
  have he3 : |d1 + d3 / 2| ≤ 2 * B := abs_le.2 (by omega)
  have hwrap : ∀ {v : Int}, |v| ≤ 4 * B → wrapInt v = v := fun hv => wrapInt_of_abs_lt (hv.trans_lt hB)
  have hsum : ∀ {u v : Int}, |u| ≤ 2 * B → |v| ≤ 2 * B → |u + v| ≤ 4 * B := fun hu hv =>
    (abs_add_le _ _).trans (by linarith)
  have hdiff : ∀ {u v : Int}, |u| ≤ 2 * B → |v| ≤ 2 * B → |u - v| ≤ 4 * B := fun hu hv =>
    (abs_sub _ _).trans (by linarith)
  have hinner : ∀ {v : Int}, |v| ≤ 2 * B → wrapInt v = v := fun hv => hwrap (by linarith [abs_nonneg d0])
  simp only [idctPass, hinner he0, hinner he1, hinner he2, hinner he3, id]
  match k with
  | 0 => exact ⟨hwrap (hsum he0 he3), hsum he0 he3⟩
  | 1 => exact ⟨hwrap (hsum he1 he2), hsum he1 he2⟩
  | 2 => exact ⟨hwrap (hdiff he1 he2), hdiff he1 he2⟩
  | 3 => exact ⟨hwrap (hdiff he0 he3), hdiff he0 he3⟩

/-- The rows stay below 2^27 and the columns below 2^29, so neither pass wraps, nor the `+ 32`. -/
theorem idct_wrapInt_of_abs_le {c : Fin 4 → Fin 4 → Int} (hc : ∀ i j, |c i j| ≤ 2 ^ 25) (i j : Fin 4) :
    idct wrapInt c i j = idct id c i j := by
  have hrow : ∀ r k,
      idctPass wrapInt (c r 0) (c r 1) (c r 2) (c r 3) k = idctPass id (c r 0) (c r 1) (c r 2) (c r 3) k ∧
      |idctPass id (c r 0) (c r 1) (c r 2) (c r 3) k| ≤ 4 * 2 ^ 25 := fun r k =>
    idctPass_of_abs_le (hc r 0) (hc r 1) (hc r 2) (hc r 3) (by norm_num) k
  obtain ⟨hcol, hbound⟩ := idctPass_of_abs_le (hrow 0 j).2 (hrow 1 j).2 (hrow 2 j).2 (hrow 3 j).2 (by norm_num) i
  have hround : ∀ {v : Int}, |v| ≤ 4 * (4 * 2 ^ 25) → wrapInt (v + 32) = v + 32 := fun hv =>
    wrapInt_of_abs_lt ((abs_add_le _ _).trans_lt (by norm_num; linarith))
  simp only [idct, (hrow _ _).1, hcol, hround hbound, id]

/-- Settles O24: the value is the wrapping one of O23, which does not wrap below 2^25. -/
theorem idctIsExactOnBoundedBlocks : Obligations.IdctIsExactOnBoundedBlocks := fun s hbound =>
  ⟨_, exec_idct4 s, fun i j =>
    (toInt_at_idct4 s.coef i j).trans (idct_wrapInt_of_abs_le (fun r k => (hbound r k).le) i j)⟩

/-! ### IHAD4 (41_transform.md R133) -/

theorem wrap32_mul (a b : Int) : wrap32 (a * b) = wrap32 a * wrap32 b := BitVec.ofInt_mul a b

/-- The wrap of a sum of four is the sum of the wraps over the 32-bit integers. -/
theorem wrap32_sum4 (f : Fin 4 → Int) : wrap32 (sum4 f) = ∑ k, wrap32 (f k) := by
  simp only [wrap32, sum4, BitVec.ofInt_add, Fin.sum_univ_four]

theorem wrap32_toInt (a : Coef) : wrap32 a.toInt = a := BitVec.ofInt_toInt

/-- The model's integer matrix, wrapped, is `A` of the statement. -/
theorem hadamardA_eq : hadamardA = Matrix.of fun i j => wrap32 hadamard[i][j] := by decide

/-- The double sum of IHAD4 is the product of three matrices. -/
theorem asMatrix_inverseHadamard4 (b : Block) : asMatrix (inverseHadamard4 b) = hadamardA * asMatrix b * hadamardA := by
  ext1 i j
  calc asMatrix (inverseHadamard4 b) i j
      = ∑ k, ∑ l, hadamardA i k * Block.at b k l * hadamardA l j := by
        simp only [asMatrix, Matrix.of_apply, inverseHadamard4, Block.at_make, wrap32_sum4, wrap32_mul, wrap32_toInt,
          hadamardA_eq]
    _ = ∑ l, ∑ k, hadamardA i k * Block.at b k l * hadamardA l j := Finset.sum_comm
    _ = (hadamardA * asMatrix b * hadamardA) i j := by
        simp only [Matrix.mul_apply, Finset.sum_mul, asMatrix, Matrix.of_apply]

/-- Settles O25: IHAD4 replaces `C` by the matrix product. -/
theorem ihad4IsTheMatrixProduct : Obligations.Ihad4IsTheMatrixProduct := fun s =>
  ⟨_, exec_ihad4 s, asMatrix_inverseHadamard4 s.coef, State.withCoef_complete_eq s _⟩

/-! ### IHAD2 (41_transform.md R134) -/

theorem inverseHadamard2_entries (b : Block) :
    (inverseHadamard2 b)[0] = b[0] + b[1] + b[2] + b[3] ∧ (inverseHadamard2 b)[1] = b[0] - b[1] + b[2] - b[3] ∧
    (inverseHadamard2 b)[2] = b[0] + b[1] - b[2] - b[3] ∧ (inverseHadamard2 b)[3] = b[0] - b[1] - b[2] + b[3] := by
  simp [inverseHadamard2]

/-- IHAD2 writes only the first four entries. -/
theorem getElem_inverseHadamard2_of_ge (b : Block) {k : Fin 16} (hk : 4 ≤ k.val) : (inverseHadamard2 b)[k] = b[k] := by
  have hne : k.val ≠ 0 ∧ k.val ≠ 1 ∧ k.val ≠ 2 ∧ k.val ≠ 3 := by omega
  simp only [inverseHadamard2, getElem_set_fin, hne, if_false]

/-- Settles O26: each of the four sums wraps at every step, which is one wrap of the whole sum. -/
theorem ihad2TransformsFourEntries : Obligations.Ihad2TransformsFourEntries := by
  intro s
  obtain ⟨h0, h1, h2, h3⟩ := inverseHadamard2_entries s.coef
  refine ⟨_, exec_ihad2 s, State.withCoef_complete_eq s _, ?_, ?_, ?_, ?_, fun k hk =>
    getElem_inverseHadamard2_of_ge s.coef hk⟩
  all_goals
    simp only [State.complete_coef, State.withCoef_coef, h0, h1, h2, h3, toInt_add_eq_wrapInt, toInt_sub_eq_wrapInt,
      wrapInt_wrapInt_add, wrapInt_wrapInt_sub]

/-! ### MVDC and MRGDC (41_transform.md R135, R136) -/

/-- Settles O27: MVDC replaces `DC` by `C`, and MRGDC writes entry 0 of `C` alone. -/
theorem dcMovesCopyEntries : Obligations.DcMovesCopyEntries := by
  refine ⟨exec_mvdc, fun n s => ⟨_, exec_mrgdc n s, State.withCoef_complete_eq s _, fun k hk => ?_, fun k hk => ?_⟩⟩
  · obtain rfl : k = ⟨n.toNat, n.isLt⟩ := Fin.ext hk
    exact Vector.getElem_set_self _
  · exact (getElem_set_fin s.coef _ (by decide) k).trans (if_neg hk)

/-! ### The reserved commands (41_transform.md R137, 43_interp.md R178) -/

/-- An opcode byte above 24 free bits: no bit stands in both, so the word is their sum. -/
theorem opcode_or_field (op : BitVec 8) (x : BitVec 24) :
    field 24 op ||| field 0 x = field 24 op + x.setWidth 32 := by
  have hlow : field 0 x = x.setWidth 32 := BitVec.shiftLeft_zero _
  rw [hlow]
  refine (BitVec.add_eq_or_of_and_eq_zero _ _ ?_).symm
  apply BitVec.eq_of_getLsbD_eq
  intro k hk
  by_cases hk24 : k < 24
  · simp [getLsbD_field, hk24]
  · simp [BitVec.getLsbD_of_ge x k (by omega)]

/-- The opcode of a word alone chooses the row that reads its fields. -/
theorem decode_eq_decodeFields {w op : Word} (h : w >>> 24 = op) : decode w = decodeFields op.toNat w := by
  rw [decode, toNat_opcodeOf, h]

/-- Settles O28: the opcode alone selects the row, whose command raises the fault in every state. -/
theorem reservedFeaturesAlwaysFault : Obligations.ReservedFeaturesAlwaysFault := by
  refine ⟨fun w hw => ⟨_, decode_eq_decodeFields hw⟩, fun w hw => ⟨_, decode_eq_decodeFields hw⟩, fun x s => ?_⟩
  have hidct8 : encode (.idct8 x) = 0x18000000 + x.setWidth 32 := opcode_or_field 0x18 x
  have hmcbi : encode (.mcbi x) = 0x38000000 + x.setWidth 32 := opcode_or_field 0x38 x
  rw [← hidct8, ← hmcbi]
  exact ⟨raise_eq_faulted _ _ s, raise_eq_faulted _ _ s⟩

end Sys2Proof.Machine
end

section
/-! PROOF. The dequantization scaler commands (42_dequant.md R153 to R158): the wrap of QPADD, the QP mapping of CQP,
the three scalers as wrapped integer operations, and the range of levels in which they do not wrap and agree with the
later edition of the standard. -/

namespace Sys2Proof.Machine

open Sys2Proof.Claims

/-! ### The commands' meanings -/

/-- QPADD in its range (42_dequant.md R153). -/
theorem exec_qpadd_of_range {delta : BitVec 8} (h : -26 ≤ delta.toInt ∧ delta.toInt ≤ 25) (s : State) :
    exec (.qpadd delta) s = .next (s.withRegs { s.regs with qpy := qpWrap s.regs.qpy delta }).complete :=
  if_neg (not_or.2 ⟨not_lt.2 h.1, not_lt.2 h.2⟩)

theorem exec_dqac (skipdc qsel : Bool) (s : State) :
    exec (.dqac skipdc qsel) s = .next (s.withCoef (scaleAc s.cfg (acQp qsel s.regs) skipdc s.coef)).complete := rfl

theorem exec_dqdcl (s : State) :
    exec .dqdcl s = .next (s.withCoef (scaleLumaDcBlock s.cfg s.regs.qpy.toNat s.coef)).complete := rfl

theorem exec_dqdcc (s : State) :
    exec .dqdcc s = .next (s.withCoef (scaleChromaDcBlock s.cfg s.regs.qpc.toNat s.coef)).complete := rfl

/-! ### QPADD (42_dequant.md R153) -/

/-- The `+ 52` of the pseudocode is gone modulo 52, and the remainder fits the register. -/
theorem toNat_qpWrap (qp : BitVec 6) (delta : BitVec 8) :
    ((qpWrap qp delta).toNat : Int) = (qp.toNat + delta.toInt) % 52 := by
  rw [qpWrap, Int.add_emod_right, BitVec.toNat_ofInt]
  omega

/-- Settles O29: a delta in range adds modulo 52, and one out of range makes the command ill-formed. -/
theorem qpaddWrapsModulo52 : Obligations.QpaddWrapsModulo52 := by
  refine fun d s _ => ⟨fun hrange => ⟨_, exec_qpadd_of_range hrange s, toNat_qpWrap _ d⟩, fun hout => ?_⟩
  have hillegal : (Instr.qpadd d).wellFormed = false := (qpadd_wellFormed_eq_false_iff d).2 (by omega)
  exact (parseErrorDependsOnTheWordAlone (.qpadd d) s).1 hillegal

/-! ### CQP (42_dequant.md R154) -/

/-- A two-bit field that is not 3 has one of the three values CQP allows. -/
theorem eq_zero_or_one_or_two_of_ne_three {b : BitVec 2} (h : b ≠ 3) : b = 0 ∨ b = 1 ∨ b = 2 := by
  revert b
  decide

theorem cqpSource_eq_some {src : BitVec 2} (h : src ≠ 3) (g : CtrlRegs) : cqpSource src g = some (cqpValue src g) := by
  obtain rfl | rfl | rfl := eq_zero_or_one_or_two_of_ne_three h <;> rfl

theorem cqpStore_eq_some {dst : BitVec 2} (h : dst ≠ 3) (v : BitVec 6) (g : CtrlRegs) :
    cqpStore dst v g = some (cqpWrite dst v g) := by
  obtain rfl | rfl | rfl := eq_zero_or_one_or_two_of_ne_three h <;> rfl

/-- CQP with legal fields: the source is read from the registers before the write. -/
theorem exec_cqp_of_ne_three {src dst : BitVec 2} (hsrc : src ≠ 3) (hdst : dst ≠ 3) (plane : Bool) (s : State) :
    exec (.cqp src dst plane) s = .next (s.withRegs (cqpWrite dst
      (chromaQp s.cfg (cqpValue src s.regs) (chromaOffset plane s.regs)) s.regs)).complete := by
  simp only [exec, execCqp, cqpSource_eq_some hsrc, Option.bind_some, cqpStore_eq_some hdst]

/-- An entry of the table fits the six bits of a QP register. -/
theorem toNat_chromaQp (c : Config) (q : BitVec 6) (off : Int) :
    (chromaQp c q off).toNat = c.chromaQpTab[clipIndex (q.toNat + off)].val := by
  rw [chromaQp, BitVec.toNat_ofNat]
  omega

/-- Settles O30: the table is read at the clipped sum, and the entry goes to the register `dst` names. -/
theorem cqpMapsTheChromaQp : Obligations.CqpMapsTheChromaQp := fun src dst plane s hsrc hdst =>
  ⟨clipIndex ((cqpValue src s.regs).toNat + chromaOffset plane s.regs), _,
    (clipIndex_val _).trans (clip3_eq_max_min (by decide) _), toNat_chromaQp s.cfg _ _,
    exec_cqp_of_ne_three hsrc hdst plane s⟩

/-! ### Products and shifts on integers (00_scope.md R10, 42_dequant.md R151) -/

theorem toInt_mul_eq_wrapInt (a b : Coef) : (a * b).toInt = wrapInt (a.toInt * b.toInt) := BitVec.toInt_mul a b

theorem toInt_shiftLeft_eq_wrapInt (a : Coef) (n : Nat) : (a <<< n).toInt = wrapInt (a.toInt * 2 ^ n) := by
  rw [wrapInt, BitVec.toInt_eq_toNat_bmod a, Int.bmod_mul_bmod, BitVec.toInt_shiftLeft, Nat.shiftLeft_eq]
  norm_cast

/-- An entry of `LEVEL_SCALE` is below 2^8. -/
theorem abs_scaleFactor_le (c : Config) (qp : Nat) (i : Fin 16) : |scaleFactor c qp i| ≤ 255 := by
  rw [scaleFactor, abs_le]
  omega

/-- The level scale of the model is the factor of the statements: it fits a coefficient. -/
theorem toInt_levelScale (c : Config) (qp : Nat) (i : Fin 16) : (levelScale c qp i).toInt = scaleFactor c qp i :=
  (BitVec.toInt_ofNat' _).trans (wrapInt_of_abs_lt ((abs_scaleFactor_le c qp i).trans_lt (by norm_num)))

/-- A coefficient scaled and shifted left wraps after the product and after the shift. -/
theorem toInt_mul_levelScale_shiftLeft (c : Config) (qp : Nat) (i : Fin 16) (v : Coef) (n : Nat) :
    ((v * levelScale c qp i) <<< n).toInt = wrapInt (wrapInt (v.toInt * scaleFactor c qp i) * 2 ^ n) := by
  rw [toInt_shiftLeft_eq_wrapInt, toInt_mul_eq_wrapInt, toInt_levelScale]

/-! ### DQAC (42_dequant.md R155) -/

theorem toInt_getElem_scaleAc (c : Config) (qp : Nat) (skipdc : Bool) (b : Block) (k : Fin 16) :
    (scaleAc c qp skipdc b)[k].toInt = if skipdc = true ∧ k.val = 0 then b[k].toInt
      else wrapInt (wrapInt (b[k].toInt * scaleFactor c qp k) * 2 ^ (qp / 6)) := by
  have hentry : (scaleAc c qp skipdc b)[k] = if skipdc = true ∧ k = 0 then b[k] else
      (b[k] * levelScale c qp k) <<< (qp / 6) := Vector.getElem_ofFn k.isLt
  have hdc : k = 0 ↔ k.val = 0 := Fin.ext_iff
  simp only [hentry, apply_ite BitVec.toInt, toInt_mul_levelScale_shiftLeft, hdc]

/-- Settles O31: DQAC replaces `C` by the scaled block. -/
theorem dqacScalesTheBlock : Obligations.DqacScalesTheBlock := fun skipdc qsel s =>
  ⟨_, exec_dqac skipdc qsel s, State.withCoef_complete_eq s _, toInt_getElem_scaleAc s.cfg _ skipdc s.coef⟩

/-! ### DQDCL (42_dequant.md R156) -/

/-- The three QP ranges of the rule: a left shift, and below QP 12 a right shift by 1 or 2 with its rounding. -/
theorem toInt_scaleLumaDc (c : Config) (qp : Nat) (v : Coef) :
    (scaleLumaDc c qp v).toInt =
      if 12 ≤ qp then wrapInt (wrapInt (v.toInt * scaleFactor c qp 0) * 2 ^ (qp / 6 - 2))
      else if 6 ≤ qp then wrapInt (wrapInt (v.toInt * scaleFactor c qp 0) + 1) / 2
      else wrapInt (wrapInt (v.toInt * scaleFactor c qp 0) + 2) / 4 := by
  unfold scaleLumaDc
  split_ifs with h12 h6
  · exact toInt_mul_levelScale_shiftLeft c qp 0 v _
  · have hshift : qp / 6 = 1 := by omega
    rw [hshift, toInt_sshiftRight_eq_div, toInt_add_eq_wrapInt, toInt_mul_eq_wrapInt, toInt_levelScale]
    rfl
  · have hshift : qp / 6 = 0 := by omega
    rw [hshift, toInt_sshiftRight_eq_div, toInt_add_eq_wrapInt, toInt_mul_eq_wrapInt, toInt_levelScale]
    rfl

theorem toInt_getElem_scaleLumaDcBlock (c : Config) (qp : Nat) (b : Block) (k : Fin 16) :
    (scaleLumaDcBlock c qp b)[k].toInt = (scaleLumaDc c qp b[k]).toInt :=
  congrArg BitVec.toInt (Vector.getElem_ofFn k.isLt)

/-- Settles O32: DQDCL replaces every entry of `C` by its scaled value. -/
theorem dqdclScalesTheLumaDc : Obligations.DqdclScalesTheLumaDc := fun s =>
  ⟨_, exec_dqdcl s, State.withCoef_complete_eq s _, fun k =>
    (toInt_getElem_scaleLumaDcBlock s.cfg _ s.coef k).trans (toInt_scaleLumaDc s.cfg _ _)⟩

/-! ### DQDCC (42_dequant.md R157) -/

theorem toInt_scaleChromaDc (c : Config) (qp : Nat) (v : Coef) :
    (scaleChromaDc c qp v).toInt = wrapInt (wrapInt (v.toInt * scaleFactor c qp 0) * 2 ^ (qp / 6)) / 2 := by
  rw [scaleChromaDc, toInt_sshiftRight_eq_div, toInt_mul_levelScale_shiftLeft]
  rfl

theorem toInt_getElem_scaleChromaDcBlock (c : Config) (qp : Nat) (b : Block) (k : Fin 16) :
    (scaleChromaDcBlock c qp b)[k].toInt =
      if k.val < 4 then wrapInt (wrapInt (b[k].toInt * scaleFactor c qp 0) * 2 ^ (qp / 6)) / 2 else b[k].toInt := by
  have hentry : (scaleChromaDcBlock c qp b)[k] = if k.val < 4 then scaleChromaDc c qp b[k] else b[k] :=
    Vector.getElem_ofFn k.isLt
  rw [hentry, apply_ite BitVec.toInt, toInt_scaleChromaDc]

/-- Settles O33: DQDCC replaces the first four entries of `C` by their scaled values. -/
theorem dqdccScalesTheChromaDc : Obligations.DqdccScalesTheChromaDc := fun s =>
  ⟨_, exec_dqdcc s, State.withCoef_complete_eq s _, toInt_getElem_scaleChromaDcBlock s.cfg _ s.coef⟩

/-! ### The range in which the scalers do not wrap (42_dequant.md R155, R158) -/

/-- A level of 16 bits times a level scale. -/
theorem abs_mul_scaleFactor_lt {v : Int} (hv : -32768 ≤ v ∧ v ≤ 32767) (c : Config) (qp : Nat) (i : Fin 16) :
    |v * scaleFactor c qp i| < 2 ^ 23 := by
  have hlevel : |v| ≤ 32768 := abs_le.2 (by omega)
  calc |v * scaleFactor c qp i| = |v| * |scaleFactor c qp i| := abs_mul _ _
    _ ≤ 32768 * 255 := mul_le_mul hlevel (abs_scaleFactor_le c qp i) (abs_nonneg _) (by norm_num)
    _ < 2 ^ 23 := by norm_num

/-- The shift of a legal QP is at most 8, and 23 bits shifted by 8 still fit. -/
theorem wrapInt_wrapInt_mul_two_pow_of_abs_lt {m : Int} (hm : |m| < 2 ^ 23) {n : Nat} (hn : n ≤ 8) :
    wrapInt (wrapInt m * 2 ^ n) = m * 2 ^ n := by
  have hshifted : |m * 2 ^ n| < 2 ^ 31 := by
    calc |m * 2 ^ n| = |m| * 2 ^ n := by rw [abs_mul, abs_pow, abs_two]
      _ < 2 ^ 23 * 2 ^ n := by gcongr
      _ ≤ 2 ^ 23 * 2 ^ 8 := by gcongr; norm_num
      _ = 2 ^ 31 := by norm_num
  rw [wrapInt_of_abs_lt (hm.trans (by norm_num)), wrapInt_of_abs_lt hshifted]

/-- The rounding of DQDCL adds too little to wrap. -/
theorem wrapInt_wrapInt_add_of_abs_lt {m r : Int} (hm : |m| < 2 ^ 23) (hr : |r| ≤ 2) :
    wrapInt (wrapInt m + r) = m + r := by
  rw [wrapInt_wrapInt_add, wrapInt_of_abs_lt ((abs_add_le m r).trans_lt (by linarith))]

/-! ### The later edition's formulas (42_dequant.md R158) -/

/-- The rounding half of a right shift does not carry into an exact multiple. -/
theorem multiple_add_half_ediv (q : Int) (n : Nat) : (q * 2 ^ (n + 1) + 2 ^ n) / 2 ^ (n + 1) = q := by
  have hhalf : (2 : Int) ^ n / 2 ^ (n + 1) = 0 :=
    Int.ediv_eq_zero_of_lt (by positivity) (pow_lt_pow_right₀ (by norm_num) (by omega))
  rw [add_comm, Int.add_mul_ediv_right _ _ (by positivity), hhalf, zero_add]

/-- The later edition's shift by `e - base`, to the right with rounding where `e` is below `base`, of a value with `k`
factors of 2: where these cover the right shift, nothing is rounded. -/
theorem rounded_shift_of_multiple (m : Int) {base e k : Nat} (h : base ≤ e + k) :
    (if e < base then (m * 2 ^ k + 2 ^ (base - 1 - e)) / 2 ^ (base - e) else m * 2 ^ k * 2 ^ (e - base)) =
      m * 2 ^ (e + k - base) := by
  split_ifs with hlt
  · obtain ⟨n, rfl⟩ : ∃ n, base = e + n + 1 := ⟨base - e - 1, by omega⟩
    have hfactors : k = e + k - (e + n + 1) + (n + 1) := by omega
    have hmultiple : m * 2 ^ k = m * 2 ^ (e + k - (e + n + 1)) * 2 ^ (n + 1) := by
      rw [mul_assoc, ← pow_add, ← hfactors]
    rw [hmultiple, show e + n + 1 - 1 - e = n by omega, show e + n + 1 - e = n + 1 by omega, multiple_add_half_ediv]
  · rw [mul_assoc, ← pow_add, show k + (e - base) = e + k - base by omega]

/-- From QP 12 on the weight covers the right shift of the later edition, and below both editions of DQDCL round at the
same place. -/
theorem lumaDc_eq_laterEdition {m : Int} (hm : |m| < 2 ^ 23) {qp : Nat} (hqp : qp ≤ 51) :
    (if 12 ≤ qp then wrapInt (wrapInt m * 2 ^ (qp / 6 - 2))
      else if 6 ≤ qp then wrapInt (wrapInt m + 1) / 2 else wrapInt (wrapInt m + 2) / 4) =
    if qp / 6 < 6 then (m * 2 ^ 4 + 2 ^ (5 - qp / 6)) / 2 ^ (6 - qp / 6) else m * 2 ^ 4 * 2 ^ (qp / 6 - 6) := by
  by_cases h12 : 12 ≤ qp
  · have hcover : 6 ≤ qp / 6 + 4 := by omega
    rw [if_pos h12, wrapInt_wrapInt_mul_two_pow_of_abs_lt hm (by omega)]
    exact (rounded_shift_of_multiple m hcover).symm
  by_cases h6 : 6 ≤ qp
  · have hshift : qp / 6 = 1 := by omega
    rw [if_neg h12, if_pos h6, hshift, wrapInt_wrapInt_add_of_abs_lt hm (by decide), if_pos (by decide)]
    omega
  · have hshift : qp / 6 = 0 := by omega
    rw [if_neg h12, if_neg h6, hshift, wrapInt_wrapInt_add_of_abs_lt hm (by decide), if_pos (by decide)]
    omega

/-- DQDCC: the later edition's shift by 5 is the weight's four factors of 2 and the final halving. -/
theorem chromaDc_eq_laterEdition {m : Int} (hm : |m| < 2 ^ 23) {qp : Nat} (hqp : qp ≤ 51) :
    wrapInt (wrapInt m * 2 ^ (qp / 6)) / 2 = m * 2 ^ 4 * 2 ^ (qp / 6) / 32 := by
  rw [wrapInt_wrapInt_mul_two_pow_of_abs_lt hm (by omega), mul_right_comm m (2 ^ 4)]
  omega

/-- Settles O34: the weight 16 is four factors of 2 on the product of level and scale, which does not wrap. -/
theorem scalersAgreeWithTheLaterEdition : Obligations.ScalersAgreeWithTheLaterEdition := by
  intro s hqpy hqpc hlevel
  refine ⟨_, _, _, exec_dqac false false s, exec_dqdcl s, exec_dqdcc s, fun k => ?_⟩
  have hweight : ∀ c : Int, s.coef[k].toInt * 16 * c = s.coef[k].toInt * c * 2 ^ 4 := fun c => by ring
  have hprod := abs_mul_scaleFactor_lt (hlevel k) s.cfg
  have hac : (scaleAc s.cfg s.regs.qpy.toNat false s.coef)[k].toInt =
      s.coef[k].toInt * scaleFactor s.cfg s.regs.qpy.toNat k * 2 ^ (s.regs.qpy.toNat / 6) := by
    rw [toInt_getElem_scaleAc, if_neg (by simp), wrapInt_wrapInt_mul_two_pow_of_abs_lt (hprod _ k) (by omega)]
  refine ⟨hac, hac.trans ?_, ?_, fun hk => ?_⟩
  · rw [hweight]
    exact (rounded_shift_of_multiple _ (Nat.le_add_left 4 _)).symm
  · rw [hweight]
    exact ((toInt_getElem_scaleLumaDcBlock s.cfg _ s.coef k).trans (toInt_scaleLumaDc s.cfg _ _)).trans
      (lumaDc_eq_laterEdition (hprod _ 0) hqpy)
  · rw [hweight]
    exact ((toInt_getElem_scaleChromaDcBlock s.cfg _ s.coef k).trans (if_pos hk)).trans
      (chromaDc_eq_laterEdition (hprod _ 0) hqpc)

end Sys2Proof.Machine
end

section
/-! PROOF. The motion-compensation commands (43_interp.md R171 to R179): the checks passed, what a command writes into
`PRED`, the sixteen luma entries and the chroma blend as values of the sample range, and the filters on a constant fetch. -/

namespace Sys2Proof.Machine

open Sys2Proof.Claims

/-! ### The commands' meanings -/

/-- A command of a legal size with a valid reference plane passes every check (43_interp.md R175, R179). -/
theorem faultOf_mcl_eq_none {hc wc : BitVec 2} {s : State} (hsize : LegalSize hc wc) (hvalid : s.regs.refValid = 1)
    (hok : RefOK s) : faultOf (.mcl hc wc) s = .none := by
  have hcodes : ¬(wc = 3 ∨ hc = 3) := by
    revert hc wc
    decide
  have hset : s.regs.refValid ≠ 0 := by
    rw [hvalid]
    decide
  simp only [faultOf, if_neg hcodes, if_neg (not_not.2 hsize), if_neg hset, if_neg (not_not.2 hok)]

/-- The side length a size code gives, as the statements write it (43_interp.md R175, R177). -/
theorem sideLength_eq (unit : Nat) (code : BitVec 2) : sideLength unit code = unit * 2 ^ code.toNat :=
  Nat.shiftLeft_eq unit code.toNat

theorem exec_mcl_of_legal {hc wc : BitVec 2} {s : State} (hsize : LegalSize hc wc) (hvalid : s.regs.refValid = 1)
    (hok : RefOK s) :
    exec (.mcl hc wc) s = .next (s.withPred (writeRect (4 * 2 ^ wc.toNat) (4 * 2 ^ hc.toNat)
      (lumaPredict s.cfg.lumaTaps (refSample (refPlane s.regs) s.sm) s.regs.mcX.toInt s.regs.mcY.toInt)
      s.pred)).complete := by
  have hnone := (mcFault_luma hc wc s).trans (faultOf_mcl_eq_none hsize hvalid hok)
  simp only [exec, execMcl, hnone, sideLength_eq]

/-- MCC makes the checks of MCL. -/
theorem exec_mcc_of_legal {hc wc : BitVec 2} {s : State} (hsize : LegalSize hc wc) (hvalid : s.regs.refValid = 1)
    (hok : RefOK s) :
    exec (.mcc hc wc) s = .next (s.withPred (writeRect (2 * 2 ^ wc.toNat) (2 * 2 ^ hc.toNat)
      (chromaPredict (refSample (refPlane s.regs) s.sm) s.regs.mcX.toInt s.regs.mcY.toInt) s.pred)).complete := by
  have hnone := (mcFault_chroma hc wc s).trans (faultOf_mcl_eq_none hsize hvalid hok)
  simp only [exec, execMcc, hnone, sideLength_eq]

/-- A completed replacement of `PRED` changes nothing but it and `CIX` (10_state.md R25). -/
theorem State.withPred_complete_eq (s : State) (p : Pred) :
    (s.withPred p).complete = { s with pred := (s.withPred p).complete.pred, cix := s.cix + 1 } := rfl

/-- An entry of `PRED` after the rectangle was written (43_interp.md R175, 70_reset_and_hazards.md R263). -/
theorem getElem_writeRect (w h : Nat) (f : Nat → Nat → Int) (p : Pred) (y x : Fin 16) :
    (writeRect w h f p)[y][x] = if x.val < w ∧ y.val < h then toSample (f x.val y.val) else p[y][x] := by
  simp only [writeRect, Fin.getElem_fin, Vector.getElem_ofFn]

/-- An entry inside the rectangle is the prediction, where that is a sample. -/
theorem toNat_getElem_writeRect {w h : Nat} {f : Nat → Nat → Int} (p : Pred) {y x : Fin 16}
    (hin : x.val < w ∧ y.val < h) (hf : 0 ≤ f x.val y.val ∧ f x.val y.val ≤ 255) :
    ((writeRect w h f p)[y][x].toNat : Int) = f x.val y.val := by
  rw [getElem_writeRect, if_pos hin]
  exact sampleInt_toSample hf.1 hf.2

/-! ### Luma samples (43_interp.md R172 to R174) -/

/-- What holds of every fetched and every half-sample value and is kept by the rounded average holds of all sixteen
entries of the table (43_interp.md R174). -/
theorem lumaSample_of_parts {P : Int → Prop} {t : Vector Int 6} {r : Int → Int → Int} (hr : ∀ x y, P (r x y))
    (hb : ∀ x y, P (lumaB t r x y)) (hh : ∀ x y, P (lumaH t r x y)) (hj : ∀ x y, P (lumaJ t r x y))
    (havg : ∀ {u v}, P u → P v → P (avg u v)) (xFrac yFrac : Fin 4) (xi yi : Int) :
    P (lumaSample t r xFrac yFrac xi yi) := by
  match yFrac, xFrac with
  | 0, 0 => exact hr _ _
  | 0, 1 => exact havg (hr _ _) (hb _ _)
  | 0, 2 => exact hb _ _
  | 0, 3 => exact havg (hr _ _) (hb _ _)
  | 1, 0 => exact havg (hr _ _) (hh _ _)
  | 1, 1 => exact havg (hb _ _) (hh _ _)
  | 1, 2 => exact havg (hb _ _) (hj _ _)
  | 1, 3 => exact havg (hb _ _) (hh _ _)
  | 2, 0 => exact hh _ _
  | 2, 1 => exact havg (hh _ _) (hj _ _)
  | 2, 2 => exact hj _ _
  | 2, 3 => exact havg (hj _ _) (hh _ _)
  | 3, 0 => exact havg (hr _ _) (hh _ _)
  | 3, 1 => exact havg (hh _ _) (hb _ _)
  | 3, 2 => exact havg (hj _ _) (hb _ _)
  | 3, 3 => exact havg (hh _ _) (hb _ _)

/-- The rounded mean of two samples is a sample. -/
theorem avg_bounds {u v : Int} (hu : 0 ≤ u ∧ u ≤ 255) (hv : 0 ≤ v ∧ v ≤ 255) : 0 ≤ avg u v ∧ avg u v ≤ 255 :=
  asr_bounds (by omega) (by omega)

/-- Every entry of the table is a clipped value, a fetched one or the mean of two, for any taps (43_interp.md R174). -/
theorem lumaSample_bounds (t : Vector Int 6) {r : Int → Int → Int} (hr : ∀ x y, 0 ≤ r x y ∧ r x y ≤ 255)
    (xFrac yFrac : Fin 4) (xi yi : Int) :
    0 ≤ lumaSample t r xFrac yFrac xi yi ∧ lumaSample t r xFrac yFrac xi yi ≤ 255 :=
  lumaSample_of_parts (P := fun v => 0 ≤ v ∧ v ≤ 255) hr (fun _ _ => clip1_bounds _) (fun _ _ => clip1_bounds _)
    (fun _ _ => clip1_bounds _) avg_bounds xFrac yFrac xi yi

/-- Whole samples move the integer position and leave the fraction (43_interp.md R175). -/
theorem quarterFrac_add_four_mul {v : Int} {k : Fin 4} (h : (k.val : Int) = v % 4) (n : Nat) :
    quarterFrac (v + 4 * n) = k := by
  apply Fin.ext
  rw [quarterFrac, Fin.val_ofNat]
  omega

/-- `(v + 2^n * k) >> n`, a floor, is `(v >> n) + k` (00_scope.md R11). -/
theorem asr_add_two_pow_mul (v k : Int) (n : Nat) : asr (v + (2 ^ n : Nat) * k) n = v / (2 ^ n : Nat) + k :=
  Int.add_mul_ediv_left v k (by positivity)

/-- Every sample of the block has the one fraction of the vector (43_interp.md R175). -/
theorem lumaPredict_eq {X Y : Int} {xFrac yFrac : Fin 4} (hx : (xFrac.val : Int) = X % 4)
    (hy : (yFrac.val : Int) = Y % 4) (t : Vector Int 6) (r : Int → Int → Int) (x y : Nat) :
    lumaPredict t r X Y x y = lumaSample t r xFrac yFrac (X / 4 + x) (Y / 4 + y) := by
  have hfloor : ∀ (v : Int) (n : Nat), asr (v + 4 * n) 2 = v / 4 + n := fun v n => asr_add_two_pow_mul v n 2
  simp only [lumaPredict, quarterFrac_add_four_mul hx, quarterFrac_add_four_mul hy, hfloor]

theorem refSample_bounds (p : Plane) (m : List Host.Cell) (x y : Int) :
    0 ≤ refSample p m x y ∧ refSample p m x y ≤ 255 := sampleInt_bounds _

/-- Settles O35: MCL passes its checks and replaces `PRED` by the rectangle of luma samples, which fit a byte. -/
theorem mclPredictsTheRectangle : Obligations.MclPredictsTheRectangle := by
  intro hc wc s hsize hvalid hok
  refine ⟨_, exec_mcl_of_legal hsize hvalid hok, State.withPred_complete_eq s _, fun y x =>
    ⟨fun hin xFrac yFrac hx hy => ?_, fun hout => ?_⟩⟩
  · have hsample := lumaPredict_eq hx hy s.cfg.lumaTaps (refSample (refPlane s.regs) s.sm) x.val y.val
    rw [← hsample]
    refine toNat_getElem_writeRect s.pred hin ?_
    rw [hsample]
    exact lumaSample_bounds _ (refSample_bounds _ _) _ _ _ _
  · exact (getElem_writeRect _ _ _ s.pred y x).trans (if_neg hout)

/-! ### Chroma samples (43_interp.md R176, R177) -/

/-- The four weights of the blend (43_interp.md R176). -/
theorem chroma_weights_sum (xF yF : Int) :
    (8 - xF) * (8 - yF) + xF * (8 - yF) + (8 - xF) * yF + xF * yF = 64 := by ring

/-- A blend of samples with weights that sum to 64 needs no clip (43_interp.md R176). -/
theorem blend_bounds {a b c d A B C D : Int} (ha : 0 ≤ a) (hb : 0 ≤ b) (hc : 0 ≤ c) (hd : 0 ≤ d)
    (hsum : a + b + c + d = 64) (hA : 0 ≤ A ∧ A ≤ 255) (hB : 0 ≤ B ∧ B ≤ 255) (hC : 0 ≤ C ∧ C ≤ 255)
    (hD : 0 ≤ D ∧ D ≤ 255) :
    0 ≤ asr (a * A + b * B + c * C + d * D + 32) 6 ∧ asr (a * A + b * B + c * C + d * D + 32) 6 ≤ 255 := by
  have hlow : 0 ≤ a * A + b * B + c * C + d * D :=
    add_nonneg (add_nonneg (add_nonneg (mul_nonneg ha hA.1) (mul_nonneg hb hB.1)) (mul_nonneg hc hC.1))
      (mul_nonneg hd hD.1)
  have hhigh : a * A + b * B + c * C + d * D ≤ 64 * 255 := by
    calc a * A + b * B + c * C + d * D ≤ a * 255 + b * 255 + c * 255 + d * 255 := by
          gcongr
          exacts [hA.2, hB.2, hC.2, hD.2]
      _ = 64 * 255 := by rw [← hsum]; ring
  exact asr_bounds (by omega) (by omega)

theorem chromaSample_bounds {r : Int → Int → Int} (hr : ∀ x y, 0 ≤ r x y ∧ r x y ≤ 255) {xF yF : Int}
    (hx : 0 ≤ xF ∧ xF ≤ 8) (hy : 0 ≤ yF ∧ yF ≤ 8) (xi yi : Int) :
    0 ≤ chromaSample r xF yF xi yi ∧ chromaSample r xF yF xi yi ≤ 255 := by
  have hx' : 0 ≤ 8 - xF := sub_nonneg.2 hx.2
  have hy' : 0 ≤ 8 - yF := sub_nonneg.2 hy.2
  exact blend_bounds (mul_nonneg hx' hy') (mul_nonneg hx.1 hy') (mul_nonneg hx' hy.1) (mul_nonneg hx.1 hy.1)
    (chroma_weights_sum xF yF) (hr _ _) (hr _ _) (hr _ _) (hr _ _)

/-- Every sample of the block has the one fraction of the vector (43_interp.md R177). -/
theorem chromaPredict_eq (r : Int → Int → Int) (X Y : Int) (x y : Nat) :
    chromaPredict r X Y x y = chromaSample r (X % 8) (Y % 8) (X / 8 + x) (Y / 8 + y) := by
  have hfloor : ∀ (v : Int) (n : Nat), asr (v + 8 * n) 3 = v / 8 + n := fun v n => asr_add_two_pow_mul v n 3
  simp only [chromaPredict, Int.add_mul_emod_self_left, hfloor]

theorem chromaPredict_bounds {r : Int → Int → Int} (hr : ∀ x y, 0 ≤ r x y ∧ r x y ≤ 255) (X Y : Int) (x y : Nat) :
    0 ≤ chromaPredict r X Y x y ∧ chromaPredict r X Y x y ≤ 255 := by
  rw [chromaPredict_eq]
  exact chromaSample_bounds hr (by omega) (by omega) _ _

/-- Settles O36: MCC passes its checks and replaces `PRED` by the rectangle of chroma samples, which fit a byte. -/
theorem mccPredictsTheRectangle : Obligations.MccPredictsTheRectangle := by
  intro hc wc s hsize hvalid hok
  refine ⟨_, exec_mcc_of_legal hsize hvalid hok, State.withPred_complete_eq s _, fun y x =>
    ⟨fun hin => ?_, fun hout => ?_⟩⟩
  · exact (toNat_getElem_writeRect s.pred hin (chromaPredict_bounds (refSample_bounds _ _) _ _ _ _)).trans
      (chromaPredict_eq _ _ _ _ _)
  · exact (getElem_writeRect _ _ _ s.pred y x).trans (if_neg hout)

/-! ### The default taps (43_interp.md R172, R173; log 5) -/

theorem taps6_default (g : Int → Int) :
    taps6 defaultLumaTaps g = g 0 - 5 * g 1 + 20 * g 2 + 20 * g 3 - 5 * g 4 + g 5 := by
  have htaps : taps6 defaultLumaTaps g = 1 * g 0 + -5 * g 1 + 20 * g 2 + 20 * g 3 + -5 * g 4 + 1 * g 5 := rfl
  rw [htaps]
  ring

/-- The six-tap sum with the default taps over the values around a position (43_interp.md R172). -/
theorem taps6_default_around (f : Int → Int) (i : Int) :
    (taps6 defaultLumaTaps fun k => f (i - 2 + k)) =
      f (i - 2) - 5 * f (i - 1) + 20 * f i + 20 * f (i + 1) - 5 * f (i + 2) + f (i + 3) := by
  rw [taps6_default]
  ring_nf

theorem clip1_eq_max_min (v : Int) : clip1 v = max 0 (min 255 v) := clip3_eq_max_min (by decide) v

theorem lumaB_default (r : Int → Int → Int) (x y : Int) :
    lumaB defaultLumaTaps r x y = max 0 (min 255 ((r (x - 2) y - 5 * r (x - 1) y + 20 * r x y + 20 * r (x + 1) y -
      5 * r (x + 2) y + r (x + 3) y + 16) / 32)) := by
  rw [lumaB, clip1_eq_max_min, lumaB1, taps6_default_around fun i => r i y]
  rfl

theorem lumaH1_default (r : Int → Int → Int) (x y : Int) :
    lumaH1 defaultLumaTaps r x y =
      r x (y - 2) - 5 * r x (y - 1) + 20 * r x y + 20 * r x (y + 1) - 5 * r x (y + 2) + r x (y + 3) :=
  taps6_default_around (r x) y

theorem lumaH_default (r : Int → Int → Int) (x y : Int) :
    lumaH defaultLumaTaps r x y = max 0 (min 255 ((r x (y - 2) - 5 * r x (y - 1) + 20 * r x y + 20 * r x (y + 1) -
      5 * r x (y + 2) + r x (y + 3) + 16) / 32)) := by
  rw [lumaH, clip1_eq_max_min, lumaH1_default]
  rfl

/-- The centre value, from the vertical sums of six columns (43_interp.md R172, R173). -/
theorem lumaJ_default (r : Int → Int → Int) (x y : Int) :
    lumaJ defaultLumaTaps r x y = max 0 (min 255 ((lumaH1 defaultLumaTaps r (x - 2) y -
      5 * lumaH1 defaultLumaTaps r (x - 1) y + 20 * lumaH1 defaultLumaTaps r x y +
      20 * lumaH1 defaultLumaTaps r (x + 1) y - 5 * lumaH1 defaultLumaTaps r (x + 2) y +
      lumaH1 defaultLumaTaps r (x + 3) y + 512) / 1024)) := by
  rw [lumaJ, clip1_eq_max_min, lumaJ1, taps6_default_around fun i => lumaH1 defaultLumaTaps r i y]
  rfl

/-- Settles O37: each entry of the table names its parts, and these are the half-sample formulas. -/
theorem lumaTableWithDefaultTaps : Obligations.LumaTableWithDefaultTaps := by
  intro r x y L b h1 h j avg
  have hb : ∀ y, lumaB defaultLumaTaps r x y = b y := lumaB_default r x
  have hh : ∀ x, lumaH defaultLumaTaps r x y = h x := fun x => lumaH_default r x y
  have hj : lumaJ defaultLumaTaps r x y = j := by
    have hh1 : ∀ x, lumaH1 defaultLumaTaps r x y = h1 x := fun x => lumaH1_default r x y
    simp only [lumaJ_default, hh1, j]
  simp only [← hb, ← hh, ← hj]
  exact ⟨rfl, rfl, rfl, rfl, rfl, rfl, rfl, rfl, rfl, rfl, rfl, rfl, rfl, rfl, rfl, rfl⟩

/-! ### A constant fetch (43_interp.md R175, R177) -/

/-- A six-tap sum over one value is the sum of the taps times that value. -/
theorem taps6_const (t : Vector Int 6) (v : Int) : (taps6 t fun _ => v) = t.toList.sum * v := by
  have hlist : t.toList = List.ofFn fun k : Fin 6 => t[k] :=
    List.ext_getElem (by simp) fun _ _ _ => by rw [List.getElem_ofFn, Vector.getElem_toList, Fin.getElem_fin]
  rw [hlist, List.sum_ofFn, Fin.sum_univ_six]
  simp only [taps6, add_mul]
  rfl

theorem avg_self (v : Int) : avg v v = v := by
  simp only [avg, asr]
  omega

/-- The rounding constant of a filter with gain `2^(n+1)` is lost in its shift, and a sample needs no clip. -/
theorem clip1_asr_gain {v : Int} (hv : 0 ≤ v ∧ v ≤ 255) (n : Nat) :
    clip1 (asr (2 ^ (n + 1) * v + 2 ^ n) (n + 1)) = v := by
  have hround : asr (2 ^ (n + 1) * v + 2 ^ n) (n + 1) = v := by
    rw [asr, mul_comm]
    exact_mod_cast multiple_add_half_ediv v n
  rw [hround]
  exact clip3_of_mem hv.1 hv.2

/-- A fetch that answers one sample everywhere has that sample at every fraction, because the taps sum to 32
(43_interp.md R175). -/
theorem lumaSample_const {t : Vector Int 6} (ht : t.toList.sum = 32) {v : Int} (hv : 0 ≤ v ∧ v ≤ 255)
    (xFrac yFrac : Fin 4) (xi yi : Int) : lumaSample t (fun _ _ => v) xFrac yFrac xi yi = v := by
  have hsum : ∀ c : Int, (taps6 t fun _ => c) = 32 * c := fun c => by rw [taps6_const, ht]
  have hhalf : clip1 (asr (32 * v + 16) 5) = v := clip1_asr_gain hv 4
  have hcentre : clip1 (asr (32 * (32 * v) + 512) 10) = v := by
    rw [← mul_assoc]
    exact clip1_asr_gain hv 9
  refine lumaSample_of_parts (P := (· = v)) (fun _ _ => rfl) (fun x y => ?_) (fun x y => ?_) (fun x y => ?_)
    (fun hu hw => ?_) xFrac yFrac xi yi
  · rw [lumaB, lumaB1, hsum, hhalf]
  · rw [lumaH, lumaH1, hsum, hhalf]
  · simp only [lumaJ, lumaJ1, lumaH1, hsum, hcentre]
  · rw [hu, hw, avg_self]

/-- A blend of one value is that value, because the weights sum to 64 (43_interp.md R176). -/
theorem chromaSample_const (v xF yF xi yi : Int) : chromaSample (fun _ _ => v) xF yF xi yi = v := by
  have hblend : (8 - xF) * (8 - yF) * v + xF * (8 - yF) * v + (8 - xF) * yF * v + xF * yF * v = 64 * v := by
    rw [← chroma_weights_sum xF yF]
    ring
  simp only [chromaSample, hblend, asr]
  omega

/-! ### A flat plane (43_interp.md R171, R175) -/

/-- A fetch from a plane of one byte reads that byte, whatever the coordinates: it is clamped into the plane. -/
theorem refSample_of_flat {p : Plane} {m : List Host.Cell} {v : Byte} (hw : 1 ≤ p.width) (hh : 1 ≤ p.height)
    (hflat : ∀ x y, x < p.width → y < p.height → Memory.read m (sampleAddr p x y) = v) :
    refSample p m = fun _ _ => sampleInt v := by
  funext x y
  rw [refSample, refAddr, hflat _ _ (toNat_clip3_lt hw x) (toNat_clip3_lt hh y)]

/-- A rectangle that predicts the sample `v` throughout holds it in every entry. -/
theorem getElem_writeRect_of_const {w h : Nat} {f : Nat → Nat → Int} {v : Byte} (hf : ∀ x y, f x y = sampleInt v)
    (p : Pred) {y x : Fin 16} (hx : x.val < w) (hy : y.val < h) : (writeRect w h f p)[y][x] = v := by
  rw [getElem_writeRect, if_pos ⟨hx, hy⟩, hf, toSample_sampleInt]

/-- Settles O38: every fetch reads `v`, and both filters answer the one value they are given. -/
theorem flatPlanePredictsFlatBlock : Obligations.FlatPlanePredictsFlatBlock := by
  intro hc wc s v hsize hvalid hok htaps hflat
  have ⟨hw, hh, _⟩ := hok
  have hfetch : refSample (refPlane s.regs) s.sm = fun _ _ => sampleInt v := refSample_of_flat hw hh hflat
  refine ⟨_, _, exec_mcl_of_legal hsize hvalid hok, exec_mcc_of_legal hsize hvalid hok, fun y x =>
    ⟨getElem_writeRect_of_const (fun n m => ?_) s.pred, getElem_writeRect_of_const (fun n m => ?_) s.pred⟩⟩
  · rw [hfetch]
    exact lumaSample_const htaps (sampleInt_bounds v) _ _ _ _
  · rw [hfetch]
    exact (chromaPredict_eq _ _ _ _ _).trans (chromaSample_const _ _ _ _ _)

end Sys2Proof.Machine
end

section
/-! PROOF. The boundary strength and the line filters (44_deblock.md R191 to R202): BS and its four inputs, the threshold
indices, which line DBL answers in which case, the samples of the two filters as integers that need no clip beyond the
formulas' own, and from them the bounds, the mirror image and the lines that are left. -/

namespace Sys2Proof.Machine

open Sys2Proof.Claims

/-! ### The commands' meanings -/

theorem exec_bs (mbedge : Bool) (s : State) :
    exec (.bs mbedge) s = .next (s.withRegs { s.regs with
      dbBs := BitVec.ofNat 3
        (boundaryStrength mbedge s.regs.bspInfo s.regs.bsqInfo s.regs.bspMv s.regs.bsqMv) }).complete := rfl

theorem exec_dbl (chroma : Bool) (s : State) :
    exec (.dbl chroma) s = .next (s.withLine (deblockLine s.cfg s.regs chroma s.line)).complete := rfl

/-- A completed replacement of `S` changes nothing but it and `CIX` (10_state.md R22). -/
theorem State.withLine_complete_eq (s : State) (l : Line) :
    (s.withLine l).complete = { s with line := (s.withLine l).complete.line, cix := s.cix + 1 } := rfl

/-- The absolute value of 00_scope.md R12. -/
theorem iabs_eq_abs (v : Int) : iabs v = |v| := by
  unfold iabs
  split_ifs with h
  · exact (abs_of_nonneg h).symm
  · exact (abs_of_neg (not_le.1 h)).symm

/-! ### BS (44_deblock.md R191) -/

theorem infoNz_pos_iff (v : BitVec 16) : 0 < infoNz v ↔ (v >>> 2) % 32 ≠ 0 := by
  rw [infoNz, ne_eq, ← BitVec.toNat_inj, BitVec.extractLsb'_toNat, BitVec.toNat_umod, BitVec.toNat_ushiftRight]
  exact Nat.pos_iff_ne_zero

theorem infoRefId_ne_iff (p q : BitVec 16) : infoRefId p ≠ infoRefId q ↔ p >>> 8 ≠ q >>> 8 := by
  simp only [infoRefId, ne_eq, ← BitVec.toNat_inj, BitVec.extractLsb'_toNat, BitVec.toNat_ushiftRight,
    Nat.shiftRight_eq_div_pow]
  omega

theorem mvX_eq (v : BitVec 32) : mvX v = (v.setWidth 16).toInt := by
  rw [mvX, ← BitVec.setWidth_eq_extractLsb' (by decide)]

theorem mvY_eq (v : BitVec 32) : mvY v = ((v >>> 16).setWidth 16).toInt := by
  have hhigh : v.extractLsb' 16 16 = (v >>> 16).setWidth 16 := by ext i hi; simp
  rw [mvY, hhigh]

/-- The first line of R191 that applies, in the terms of the four registers' bits. -/
theorem boundaryStrength_eq_strength (mbedge : Bool) (p q : BitVec 16) (pv qv : BitVec 32) :
    boundaryStrength mbedge p q pv qv = strength mbedge p q pv qv := by
  simp only [boundaryStrength, strength, gt_iff_lt, ge_iff_le, infoNz_pos_iff, infoRefId_ne_iff, iabs_eq_abs, mvX_eq,
    mvY_eq, infoIntra, infoRefValid, Bool.or_eq_true]
  split_ifs <;> tauto

/-- Settles O40: the strength is the formula's, and a value in 0..4 fits the three bits of `DB_BS`. -/
theorem bsComputesTheBoundaryStrength : Obligations.BsComputesTheBoundaryStrength := by
  intro mbedge s
  have hle := boundaryStrength_le mbedge s.regs.bspInfo s.regs.bsqInfo s.regs.bspMv s.regs.bsqMv
  refine ⟨_, exec_bs mbedge s, ?_⟩
  rw [BitVec.toNat_ofNat, Nat.mod_eq_of_lt (by omega)]
  exact ⟨boundaryStrength_eq_strength _ _ _ _ _, hle⟩

/-! ### The thresholds (44_deblock.md R192 to R194) -/

theorem clipIndex_eq_max_min (v : Int) : ((clipIndex v).val : Int) = max 0 (min 51 v) :=
  (clipIndex_val v).trans (clip3_eq_max_min (by decide) v)

/-- The columns of `TC0_TAB` stand for `DB_BS` 1, 2, 3 (44_deblock.md R193). -/
theorem tc0Of_column (c : Config) (g : CtrlRegs) (column : Fin 3) :
    tc0Of c g (column.val + 1) = ((c.tc0Tab[indexA g][column]).val : Int) := by
  have hcolumn : Fin.ofNat 3 column.val = column := Fin.ofNat_val_eq_self column
  simp only [tc0Of, Nat.add_sub_cancel, hcolumn]

/-- Settles O41: both indices are clips to the table's range, and the thresholds are table entries by definition. -/
theorem thresholdIndicesAreClipped : Obligations.ThresholdIndicesAreClipped := fun g =>
  ⟨clipIndex_eq_max_min _, clipIndex_eq_max_min _, fun c => ⟨rfl, rfl, tc0Of_column c g⟩⟩

theorem tc0Of_bounds (c : Config) (g : CtrlRegs) (bs : Nat) : 0 ≤ tc0Of c g bs ∧ tc0Of c g bs ≤ 25 := by
  unfold tc0Of
  omega

/-! ### The cases of DBL (44_deblock.md R195, R198) -/

theorem filterSamples_iff (s : State) :
    filterSamples s.regs.dbBs.toNat (alphaOf s.cfg s.regs) (betaOf s.cfg s.regs) s.line = true ↔ Filtered s := by
  have hbs : s.regs.dbBs.toNat ≠ 0 ↔ s.regs.dbBs ≠ 0 := (BitVec.toNat_inj (y := 0)).not
  simp only [filterSamples, iabs_eq_abs, Bool.and_eq_true, decide_eq_true_eq, bne_iff_ne, and_assoc, hbs]
  rfl

theorem deblockLine_of_not_filtered {s : State} (h : ¬ Filtered s) (chroma : Bool) :
    deblockLine s.cfg s.regs chroma s.line = s.line :=
  if_pos (Bool.eq_false_iff.2 (mt (filterSamples_iff s).1 h))

theorem deblockLine_of_normal {s : State} (h : Filtered s) (hbs : s.regs.dbBs.toNat ≤ 3) (chroma : Bool) :
    deblockLine s.cfg s.regs chroma s.line =
      normalFilter chroma (betaOf s.cfg s.regs) (tc0Of s.cfg s.regs s.regs.dbBs.toNat) s.line :=
  (if_neg (Bool.not_eq_false _ ▸ (filterSamples_iff s).2 h)).trans (if_pos (Nat.lt_succ_of_le hbs))

theorem deblockLine_of_strong {s : State} (h : Filtered s) (hbs : s.regs.dbBs = 4) (chroma : Bool) :
    deblockLine s.cfg s.regs chroma s.line =
      strongFilter chroma (alphaOf s.cfg s.regs) (betaOf s.cfg s.regs) s.line :=
  (if_neg (Bool.not_eq_false _ ▸ (filterSamples_iff s).2 h)).trans (if_neg (by rw [hbs]; decide))

/-- A command on a line that fails the thresholds does nothing but complete. -/
theorem exec_dbl_of_not_filtered {s : State} (h : ¬ Filtered s) (chroma : Bool) :
    exec (.dbl chroma) s = .next { s with cix := s.cix + 1 } := by
  rw [exec_dbl, deblockLine_of_not_filtered h]
  rfl

/-! ### What no filter reaches (44_deblock.md R201 b, c) -/

/-- An entry no filter writes: the two ends of the line, and on a chroma line all but the two samples at the edge. -/
abbrev FarFromEdge (chroma : Bool) (k : Fin 8) : Prop := k = 0 ∨ k = 7 ∨ chroma = true ∧ k ≠ 3 ∧ k ≠ 4

theorem getElem_normalFilter_of_far {chroma : Bool} {k : Fin 8} (h : FarFromEdge chroma k) (beta tc0 : Int) (l : Line) :
    (normalFilter chroma beta tc0 l)[k] = l[k] := by
  obtain rfl | rfl | ⟨rfl, h3, h4⟩ := h
  · rfl
  · rfl
  · match k with
    | 0 | 1 | 2 | 5 | 6 | 7 => rfl

theorem getElem_strongFilter_of_far {chroma : Bool} {k : Fin 8} (h : FarFromEdge chroma k) (alpha beta : Int)
    (l : Line) : (strongFilter chroma alpha beta l)[k] = l[k] := by
  obtain rfl | rfl | ⟨rfl, h3, h4⟩ := h
  · rfl
  · rfl
  · match k with
    | 0 | 1 | 2 | 5 | 6 | 7 => rfl

theorem getElem_deblockLine_of_far {chroma : Bool} {k : Fin 8} (h : FarFromEdge chroma k) (c : Config) (g : CtrlRegs)
    (l : Line) : (deblockLine c g chroma l)[k] = l[k] := by
  simp only [deblockLine]
  split_ifs
  · rfl
  · exact getElem_normalFilter_of_far h _ _ l
  · exact getElem_strongFilter_of_far h _ _ l

/-- Settles O42: the entries far from the edge keep their samples in every case, all of them where no filter runs. -/
theorem dblChangesOnlySamplesNearTheEdge : Obligations.DblChangesOnlySamplesNearTheEdge := by
  intro chroma s
  have hfar : ∀ k, FarFromEdge chroma k → (deblockLine s.cfg s.regs chroma s.line)[k] = s.line[k] :=
    fun k hk => getElem_deblockLine_of_far hk _ _ _
  have hchroma : chroma = true → ∀ k : Fin 8, k ≠ 3 ∧ k ≠ 4 →
      (deblockLine s.cfg s.regs chroma s.line)[k] = s.line[k] :=
    fun h k hk => hfar k (.inr (.inr ⟨h, hk⟩))
  exact ⟨_, exec_dbl chroma s, State.withLine_complete_eq s _, hfar 0 (.inl rfl), hfar 7 (.inr (.inl rfl)),
    fun h => ⟨hchroma h 1 (by decide), hchroma h 2 (by decide), hchroma h 5 (by decide), hchroma h 6 (by decide)⟩,
    fun hnot => deblockLine_of_not_filtered hnot chroma⟩

/-! ### The normal filter (44_deblock.md R196) -/

/-- The integers that are samples (00_scope.md R10). -/
abbrev InSampleRange (v : Int) : Prop := 0 ≤ v ∧ v ≤ 255

theorem smp_inRange (l : Line) (k : Fin 8) : InSampleRange (smp l k) := sampleInt_bounds _

theorem normalTc_bounds (chroma : Bool) (tc0 beta ap aq : Int) :
    tc0 ≤ normalTc chroma tc0 beta ap aq ∧ normalTc chroma tc0 beta ap aq ≤ tc0 + 2 := by
  unfold normalTc
  split_ifs <;> omega

theorem normalDelta_eq {tc : Int} (h : 0 ≤ tc) (p1 p0 q0 q1 : Int) :
    normalDelta tc p1 p0 q0 q1 = max (-tc) (min tc ((4 * (q0 - p0) + (p1 - q1) + 4) / 8)) :=
  clip3_eq_max_min (by omega) _

theorem normalInner_eq {tc0 : Int} (h : 0 ≤ tc0) (p2 p1 p0 q0 : Int) :
    normalInner tc0 p2 p1 p0 q0 = p1 + max (-tc0) (min tc0 ((p2 + (p0 + q0 + 1) / 2 - 2 * p1) / 2)) :=
  congrArg (p1 + ·) (clip3_eq_max_min (by omega) _)

/-- `p1'` lies between `p1` and the mean of `p2` and the edge's average, so it is a sample without a clip. -/
theorem normalInner_inRange {tc0 p2 p1 p0 q0 : Int} (h : 0 ≤ tc0) (h2 : InSampleRange p2) (h1 : InSampleRange p1)
    (h0 : InSampleRange p0) (hq : InSampleRange q0) : InSampleRange (normalInner tc0 p2 p1 p0 q0) := by
  rw [normalInner_eq h]
  omega

/-- A sample moved by a clamped amount moves by no more than the clamp. -/
theorem abs_normalInner_sub_le {tc0 : Int} (h : 0 ≤ tc0) (p2 p1 p0 q0 : Int) :
    |normalInner tc0 p2 p1 p0 q0 - p1| ≤ tc0 := by
  rw [normalInner, add_sub_cancel_left, ← iabs_eq_abs]
  exact clip3_le_abs h _

theorem abs_normalDelta_le {tc : Int} (h : 0 ≤ tc) (p1 p0 q0 q1 : Int) : |normalDelta tc p1 p0 q0 q1| ≤ tc :=
  iabs_eq_abs _ ▸ clip3_le_abs h _

/-- The clip to the sample range moves no sum farther from the sample it started at. -/
theorem abs_clip1_sub_le {p v t : Int} (hp : InSampleRange p) (h : |v - p| ≤ t) : |clip1 v - p| ≤ t := by
  rw [abs_le] at h ⊢
  rw [clip1_eq_max_min]
  omega

/-- The `delta` the normal filter moves the edge of a line by. -/
def lineDelta (chroma : Bool) (beta tc0 : Int) (l : Line) : Int :=
  normalDelta (normalTc chroma tc0 beta |smp l 1 - smp l 3| |smp l 6 - smp l 4|) (smp l 2) (smp l 3) (smp l 4) (smp l 5)

theorem smp_normalFilter_p0 (chroma : Bool) (beta tc0 : Int) (l : Line) :
    smp (normalFilter chroma beta tc0 l) 3 = clip1 (smp l 3 + lineDelta chroma beta tc0 l) := by
  rw [lineDelta, ← iabs_eq_abs, ← iabs_eq_abs]
  exact sampleInt_toSample (clip1_bounds _).1 (clip1_bounds _).2

theorem smp_normalFilter_q0 (chroma : Bool) (beta tc0 : Int) (l : Line) :
    smp (normalFilter chroma beta tc0 l) 4 = clip1 (smp l 4 - lineDelta chroma beta tc0 l) := by
  rw [lineDelta, ← iabs_eq_abs, ← iabs_eq_abs]
  exact sampleInt_toSample (clip1_bounds _).1 (clip1_bounds _).2

theorem smp_normalFilter_p1 (chroma : Bool) (beta : Int) {tc0 : Int} (h : 0 ≤ tc0) (l : Line) :
    smp (normalFilter chroma beta tc0 l) 2 =
      if chroma = false ∧ |smp l 1 - smp l 3| < beta then normalInner tc0 (smp l 1) (smp l 2) (smp l 3) (smp l 4)
      else smp l 2 := by
  have hrange := normalInner_inRange h (smp_inRange l 1) (smp_inRange l 2) (smp_inRange l 3) (smp_inRange l 4)
  rw [← sampleInt_toSample hrange.1 hrange.2, ← iabs_eq_abs]
  exact apply_ite sampleInt _ _ _

theorem smp_normalFilter_q1 (chroma : Bool) (beta : Int) {tc0 : Int} (h : 0 ≤ tc0) (l : Line) :
    smp (normalFilter chroma beta tc0 l) 5 =
      if chroma = false ∧ |smp l 6 - smp l 4| < beta then normalInner tc0 (smp l 6) (smp l 5) (smp l 4) (smp l 3)
      else smp l 5 := by
  have hrange := normalInner_inRange h (smp_inRange l 6) (smp_inRange l 5) (smp_inRange l 4) (smp_inRange l 3)
  rw [← sampleInt_toSample hrange.1 hrange.2, ← iabs_eq_abs]
  exact apply_ite sampleInt _ _ _

/-- The eight samples of the normal filter are the formulas' integers, for any clamp of the table's sign. -/
theorem smp_normalFilter (chroma : Bool) (beta : Int) {tc0 : Int} (h : 0 ≤ tc0) (l : Line) (k : Fin 8) :
    smp (normalFilter chroma beta tc0 l) k = normalSample chroma beta tc0 l k := by
  have htc := h.trans (normalTc_bounds chroma tc0 beta |smp l 1 - smp l 3| |smp l 6 - smp l 4|).1
  match k with
  | 0 | 1 | 6 | 7 => rfl
  | 2 =>
    rw [smp_normalFilter_p1 chroma beta h, normalInner_eq h]
    rfl
  | 3 =>
    rw [smp_normalFilter_p0, clip1_eq_max_min, lineDelta, normalDelta_eq htc]
    rfl
  | 4 =>
    rw [smp_normalFilter_q0, clip1_eq_max_min, lineDelta, normalDelta_eq htc]
    rfl
  | 5 =>
    rw [smp_normalFilter_q1 chroma beta h, normalInner_eq h, add_comm (smp l 4)]
    rfl

/-- Settles O43: the line is the normal filter's, and its samples are the formulas'. -/
theorem normalFilterIsExact : Obligations.NormalFilterIsExact := by
  intro chroma s hfiltered hbs
  refine ⟨_, exec_dbl chroma s, State.withLine_complete_eq s _, fun k => ?_⟩
  rw [State.complete_line, State.withLine_line, deblockLine_of_normal hfiltered hbs]
  exact smp_normalFilter chroma _ (tc0Of_bounds _ _ _).1 s.line k

/-- How far the normal filter moves a sample, by the clamps `tc` and `tc0`. -/
theorem abs_smp_normalFilter_sub_le (chroma : Bool) (beta : Int) {tc0 : Int} (h : 0 ≤ tc0) (l : Line) :
    |smp (normalFilter chroma beta tc0 l) 3 - smp l 3| ≤ tc0 + 2 ∧
      |smp (normalFilter chroma beta tc0 l) 4 - smp l 4| ≤ tc0 + 2 ∧
      |smp (normalFilter chroma beta tc0 l) 2 - smp l 2| ≤ tc0 ∧
      |smp (normalFilter chroma beta tc0 l) 5 - smp l 5| ≤ tc0 := by
  have hdelta : |lineDelta chroma beta tc0 l| ≤ tc0 + 2 := by
    obtain ⟨hlow, hhigh⟩ := normalTc_bounds chroma tc0 beta |smp l 1 - smp l 3| |smp l 6 - smp l 4|
    exact (abs_normalDelta_le (h.trans hlow) _ _ _ _).trans hhigh
  rw [smp_normalFilter_p0, smp_normalFilter_q0, smp_normalFilter_p1 chroma beta h, smp_normalFilter_q1 chroma beta h]
  refine ⟨abs_clip1_sub_le (smp_inRange l 3) ?_, abs_clip1_sub_le (smp_inRange l 4) ?_, ?_, ?_⟩
  · rwa [add_sub_cancel_left]
  · rwa [sub_sub_cancel_left, abs_neg]
  · split_ifs
    · exact abs_normalInner_sub_le h _ _ _ _
    · simpa using h
  · split_ifs
    · exact abs_normalInner_sub_le h _ _ _ _
    · simpa using h

/-- Settles O44: the moves are within the clamps, which the entries of `TC0_TAB` bound by 25. -/
theorem normalFilterMovesAreBounded : Obligations.NormalFilterMovesAreBounded := by
  intro chroma s hbs
  refine ⟨_, exec_dbl chroma s, ?_⟩
  rw [State.complete_line, State.withLine_line]
  by_cases hfiltered : Filtered s
  · obtain ⟨htc0, htc0_le⟩ := tc0Of_bounds s.cfg s.regs s.regs.dbBs.toNat
    rw [deblockLine_of_normal hfiltered hbs]
    obtain ⟨hp0, hq0, hp1, hq1⟩ := abs_smp_normalFilter_sub_le chroma (betaOf s.cfg s.regs) htc0 s.line
    exact ⟨by omega, by omega, hp1.trans htc0_le, hq1.trans htc0_le⟩
  · rw [deblockLine_of_not_filtered hfiltered]
    simp

/-! ### The strong filter (44_deblock.md R197) -/

section
variable {a b c d e : Int}

/-! The formulas are weighted means of samples, so their results are samples (R202). -/

theorem strongLong0_inRange (ha : InSampleRange a) (hb : InSampleRange b) (hc : InSampleRange c) (hd : InSampleRange d)
    (he : InSampleRange e) : InSampleRange (strongLong0 a b c d e) := asr_bounds (by omega) (by omega)

theorem strongLong1_inRange (ha : InSampleRange a) (hb : InSampleRange b) (hc : InSampleRange c)
    (hd : InSampleRange d) : InSampleRange (strongLong1 a b c d) := asr_bounds (by omega) (by omega)

theorem strongLong2_inRange (ha : InSampleRange a) (hb : InSampleRange b) (hc : InSampleRange c) (hd : InSampleRange d)
    (he : InSampleRange e) : InSampleRange (strongLong2 a b c d e) := asr_bounds (by omega) (by omega)

theorem strongShort0_inRange (ha : InSampleRange a) (hb : InSampleRange b) (hc : InSampleRange c) :
    InSampleRange (strongShort0 a b c) := asr_bounds (by omega) (by omega)

end

/-- The two sides write the sum of the long form from opposite ends. -/
theorem strongLong0_reverse (a b c d e : Int) : strongLong0 a b c d e = (e + 2 * d + 2 * c + 2 * b + a + 4) / 8 :=
  congrArg (asr · 3) (by ring)

theorem strongLong1_reverse (a b c d : Int) : strongLong1 a b c d = (d + c + b + a + 2) / 4 :=
  congrArg (asr · 2) (by ring)

/-- The decision of the long form for one side: luma, a smooth side and a small step at the edge. -/
theorem longForm_iff (chroma : Bool) (alpha beta side step : Int) :
    (!chroma && decide (iabs side < beta) && decide (iabs step < asr alpha 2 + 2)) = true ↔
      chroma = false ∧ |side| < beta ∧ |step| < alpha / 4 + 2 := by
  simp only [iabs_eq_abs, Bool.and_eq_true, Bool.not_eq_true', decide_eq_true_eq, and_assoc]
  rfl

theorem sampleInt_ite {b : Bool} {P : Prop} [Decidable P] (h : b = true ↔ P) {x y : Byte} {u v : Int}
    (hx : sampleInt x = u) (hy : sampleInt y = v) : sampleInt (if b then x else y) = if P then u else v := by
  simp only [apply_ite sampleInt, hx, hy, h]

theorem sampleInt_toSample_ite {b : Bool} {P : Prop} [Decidable P] (h : b = true ↔ P) {u v : Int}
    (hu : InSampleRange u) (hv : InSampleRange v) : sampleInt (toSample (if b then u else v)) = if P then u else v := by
  rw [apply_ite toSample]
  exact sampleInt_ite h (sampleInt_toSample hu.1 hu.2) (sampleInt_toSample hv.1 hv.2)

/-- The eight samples of the strong filter are the formulas' integers. -/
theorem smp_strongFilter (chroma : Bool) (alpha beta : Int) (l : Line) (k : Fin 8) :
    smp (strongFilter chroma alpha beta l) k = strongSample chroma alpha beta l k := by
  have hin := smp_inRange l
  have hlong := longForm_iff chroma alpha beta
  match k with
  | 0 | 7 => rfl
  | 1 =>
    have hmean := strongLong2_inRange (hin 0) (hin 1) (hin 2) (hin 3) (hin 4)
    exact sampleInt_ite (hlong _ _) (sampleInt_toSample hmean.1 hmean.2) rfl
  | 2 =>
    have hmean := strongLong1_inRange (hin 1) (hin 2) (hin 3) (hin 4)
    exact sampleInt_ite (hlong _ _) (sampleInt_toSample hmean.1 hmean.2) rfl
  | 3 =>
    exact sampleInt_toSample_ite (hlong _ _) (strongLong0_inRange (hin 1) (hin 2) (hin 3) (hin 4) (hin 5))
      (strongShort0_inRange (hin 2) (hin 3) (hin 5))
  | 4 =>
    have hshort := strongShort0_inRange (hin 5) (hin 4) (hin 2)
    have hmean := strongLong0_inRange (hin 6) (hin 5) (hin 4) (hin 3) (hin 2)
    refine (sampleInt_toSample_ite (hlong _ _) hmean hshort).trans ?_
    rw [strongLong0_reverse]
    rfl
  | 5 =>
    have hmean := strongLong1_inRange (hin 6) (hin 5) (hin 4) (hin 3)
    exact sampleInt_ite (hlong _ _) ((sampleInt_toSample hmean.1 hmean.2).trans (strongLong1_reverse _ _ _ _)) rfl
  | 6 =>
    have hmean := strongLong2_inRange (hin 7) (hin 6) (hin 5) (hin 4) (hin 3)
    exact sampleInt_ite (hlong _ _) (sampleInt_toSample hmean.1 hmean.2) rfl

/-- Settles O45: the line is the strong filter's, and its samples are the formulas'. -/
theorem strongFilterIsExact : Obligations.StrongFilterIsExact := by
  intro chroma s hfiltered hbs
  refine ⟨_, exec_dbl chroma s, State.withLine_complete_eq s _, fun k => ?_⟩
  rw [State.complete_line, State.withLine_line, deblockLine_of_strong hfiltered hbs]
  exact smp_strongFilter chroma _ _ s.line k

/-! ### The mirror image of a line (44_deblock.md R201 g) -/

theorem Line.reverse_eq (l : Line) : l.reverse = #v[l[7], l[6], l[5], l[4], l[3], l[2], l[1], l[0]] := by
  ext i hi
  rw [Vector.getElem_reverse]
  interval_cases i <;> rfl

theorem smp_reverse (l : Line) (k : Fin 8) : smp l.reverse k = smp l k.rev := by
  rw [Line.reverse_eq]
  match k with
  | 0 | 1 | 2 | 3 | 4 | 5 | 6 | 7 => rfl

theorem mirrored_cfg (s : State) : (mirrored s).cfg = s.cfg := rfl

/-- The thresholds see the two QPs through their sum alone (44_deblock.md R194). -/
theorem mirrored_thresholds (s : State) :
    alphaOf s.cfg (mirrored s).regs = alphaOf s.cfg s.regs ∧ betaOf s.cfg (mirrored s).regs = betaOf s.cfg s.regs := by
  simp only [alphaOf, betaOf, indexA, indexB, mirrored, add_comm (s.regs.dbQpq.toNat : Int), and_self]

theorem filtered_mirrored_iff (s : State) : Filtered (mirrored s) ↔ Filtered s := by
  obtain ⟨halpha, hbeta⟩ := mirrored_thresholds s
  have hsmp : ∀ k, smp (mirrored s).line k = smp s.line k.rev := smp_reverse s.line
  have hedge : |smp s.line 4 - smp s.line 3| = |smp s.line 3 - smp s.line 4| := abs_sub_comm _ _
  have hends : (3 : Fin 8).rev = 4 ∧ (4 : Fin 8).rev = 3 ∧ (2 : Fin 8).rev = 5 ∧ (5 : Fin 8).rev = 2 := by decide
  obtain ⟨h3, h4, h2, h5⟩ := hends
  simp only [Filtered, mirrored_cfg, hsmp, halpha, hbeta, h3, h4, h2, h5, hedge]
  exact and_congr Iff.rfl (and_congr Iff.rfl And.comm)

theorem strongFilter_reverse (chroma : Bool) (alpha beta : Int) (l : Line) :
    strongFilter chroma alpha beta l.reverse = (strongFilter chroma alpha beta l).reverse := by
  have hedge : iabs (sampleInt l[4] - sampleInt l[3]) = iabs (sampleInt l[3] - sampleInt l[4]) := by
    simp only [iabs_eq_abs, abs_sub_comm]
  rw [Line.reverse_eq, Line.reverse_eq]
  simp only [strongFilter, Vector.getElem_mk, List.getElem_toArray, List.getElem_cons_zero, List.getElem_cons_succ,
    hedge]
  rfl

/-- Settles O46: both lines pass the thresholds or neither does, and the strong filter treats the two sides alike. -/
theorem strongFilterIsMirrorSymmetric : Obligations.StrongFilterIsMirrorSymmetric := by
  intro chroma s hbs
  refine ⟨_, _, exec_dbl chroma s, exec_dbl chroma (mirrored s), ?_⟩
  simp only [State.complete_line, State.withLine_line]
  by_cases hfiltered : Filtered s
  · obtain ⟨halpha, hbeta⟩ := mirrored_thresholds s
    rw [deblockLine_of_strong hfiltered hbs, deblockLine_of_strong ((filtered_mirrored_iff s).2 hfiltered) hbs,
      ← strongFilter_reverse, ← halpha, ← hbeta]
    rfl
  · rw [deblockLine_of_not_filtered hfiltered, deblockLine_of_not_filtered (mt (filtered_mirrored_iff s).1 hfiltered)]
    rfl

/-! ### Low indices (44_deblock.md R192, R201 e; log 5) -/

theorem defaultAlphaTab_of_lt {i : Fin 52} (h : i.val < 16) : defaultAlphaTab[i] = 0 := by
  revert i
  decide

theorem defaultBetaTab_of_lt {i : Fin 52} (h : i.val < 16) : defaultBetaTab[i] = 0 := by
  revert i
  decide

/-- No difference is below a threshold of 0. -/
theorem not_filtered_of_zero {s : State} (h : alphaOf s.cfg s.regs = 0 ∨ betaOf s.cfg s.regs = 0) : ¬ Filtered s := by
  rintro ⟨-, hedge, hside, -⟩
  obtain halpha | hbeta := h
  · exact absurd (halpha ▸ hedge) (not_lt.2 (abs_nonneg _))
  · exact absurd (hbeta ▸ hside) (not_lt.2 (abs_nonneg _))

/-- Settles O47: below index 16 the default tables hold 0, and a line that passes no threshold is left. -/
theorem lowIndicesLeaveTheLine : Obligations.LowIndicesLeaveTheLine := by
  intro chroma s halpha hbeta hlow
  refine exec_dbl_of_not_filtered (not_filtered_of_zero (hlow.imp (fun hA => ?_) (fun hB => ?_))) chroma
  · rw [alphaOf, halpha, defaultAlphaTab_of_lt hA]
    rfl
  · rw [betaOf, hbeta, defaultBetaTab_of_lt hB]
    rfl

end Sys2Proof.Machine
end

section
/-! PROOF. The line's load and store (44_deblock.md R199, R200): the checks passed or failed, eight different addresses,
what a row of writes leaves and what reads back, and a load followed by a store. -/

namespace Sys2Proof.Machine

open Sys2Proof.Claims

/-! ### LDLN (44_deblock.md R199) -/

theorem exec_ldln_of_fits {dir : Bool} {s : State} (h : LineFits dir s) :
    exec (.ldln dir) s = .next (s.withLine (loadLine dir s)).complete := if_pos ((lineOk_iff dir s).2 h)

theorem exec_ldln_of_not_fits {dir : Bool} {s : State} (h : ¬ LineFits dir s) :
    exec (.ldln dir) s = .next (faulted s .bufferSizeError (encode (.ldln dir))) := if_neg (mt (lineOk_iff dir s).1 h)

theorem getElem_loadLine (dir : Bool) (s : State) (k : Fin 8) :
    (loadLine dir s)[k] = s.memRead (lineAddr dir s.regs k.val) := by
  simp only [loadLine, Fin.getElem_fin, Vector.getElem_ofFn]

/-- Where a line that fits stands, by the equations of R199. -/
theorem lineAddr_of_fits {dir : Bool} {s : State} (h : LineFits dir s) (k : Fin 8) :
    lineAddr dir s.regs k.val = if dir
      then s.regs.curBase.toNat + (s.regs.dbY.toNat - 4 + k.val) * s.regs.curStride.toNat + s.regs.dbX.toNat
      else s.regs.curBase.toNat + s.regs.dbY.toNat * s.regs.curStride.toNat + (s.regs.dbX.toNat - 4 + k.val) := by
  obtain ⟨-, hline⟩ := accessesStayInsideTheSampleMemory s
  exact (hline dir h k.val k.isLt).1

/-- Settles O48: the loaded samples stand at the equations' addresses. -/
theorem ldlnLoadsTheLine : Obligations.LdlnLoadsTheLine := by
  refine fun dir s => ⟨fun hfits => ⟨_, exec_ldln_of_fits hfits, State.withLine_complete_eq s _, fun k => ?_⟩,
    exec_ldln_of_not_fits⟩
  rw [← lineAddr_of_fits hfits]
  exact getElem_loadLine dir s k

/-! ### STLN (44_deblock.md R200) -/

theorem exec_stln_of_fits {dir : Bool} {s : State} (h : LineFits dir s) :
    exec (.stln dir) s = .next (storeLine dir s).complete := if_pos ((lineOk_iff dir s).2 h)

theorem exec_stln_of_not_fits {dir : Bool} {s : State} (h : ¬ LineFits dir s) :
    exec (.stln dir) s = .next (faulted s .bufferSizeError (encode (.stln dir))) := if_neg (mt (lineOk_iff dir s).1 h)

/-- The eight addresses of a line that fits are different: down a column because the stride is not 0. -/
theorem lineAddr_injective {dir : Bool} {s : State} (h : LineFits dir s) :
    Function.Injective fun k : Fin 8 => lineAddr dir s.regs k.val := by
  intro j k hjk
  simp only [lineAddr_of_fits h] at hjk
  apply Fin.ext
  cases dir with
  | false =>
    simp only [Bool.false_eq_true, if_false] at hjk
    omega
  | true =>
    obtain ⟨⟨hwidth, -, hstride, -⟩, -⟩ := h
    simp only [if_true] at hjk
    have hrows := Nat.eq_of_mul_eq_mul_right (hwidth.trans hstride) (Nat.add_left_cancel (Nat.add_right_cancel hjk))
    omega

section
variable {α : Type} {addr : α → Nat}

/-- Writes of bytes in a row leave every address that none of them names. -/
theorem Memory.read_foldl_write_of_ne (val : α → Byte) {a : Nat} {ks : List α} (h : ∀ k ∈ ks, a ≠ addr k)
    (m : List Host.Cell) :
    Memory.read (ks.foldl (fun m k => Memory.write m (addr k) (val k)) m) a = Memory.read m a := by
  induction ks generalizing m with
  | nil => rfl
  | cons k ks ih =>
    obtain ⟨hk, hks⟩ := List.forall_mem_cons.1 h
    exact (ih hks _).trans (Memory.read_write_ne m _ hk)

/-- After writes of bytes at different addresses, each of them reads back. -/
theorem Memory.read_foldl_write_of_mem (hinj : addr.Injective) (val : α → Byte) {j : α} {ks : List α} (hj : j ∈ ks)
    {m : List Host.Cell} (hm : Memory.wf m) :
    Memory.read (ks.foldl (fun m k => Memory.write m (addr k) (val k)) m) (addr j) = val j := by
  induction ks generalizing m with
  | nil => exact absurd hj List.not_mem_nil
  | cons k ks ih =>
    have hwf := Memory.write_wf hm (addr k) (val k)
    by_cases hlater : j ∈ ks
    · exact ih hlater hwf
    · obtain rfl : j = k := (List.mem_cons.1 hj).resolve_right hlater
      have hother : ∀ i ∈ ks, addr j ≠ addr i := fun i hi heq => hlater ((hinj heq).symm ▸ hi)
      exact (Memory.read_foldl_write_of_ne val hother _).trans (Memory.read_write_same hm (addr j) (val j))

end

/-- The entries STLN stores (44_deblock.md R200). -/
theorem mem_storedEntries_iff (k : Fin 8) : k ∈ ([1, 2, 3, 4, 5, 6] : List (Fin 8)) ↔ 1 ≤ k.val ∧ k.val ≤ 6 := by
  revert k
  decide

theorem memRead_storeLine_of_stored {dir : Bool} {s : State} (hwf : Memory.wf s.sm) (hfits : LineFits dir s)
    {k : Fin 8} (hk : 1 ≤ k.val ∧ k.val ≤ 6) : (storeLine dir s).memRead (lineAddr dir s.regs k.val) = s.line[k] := by
  rw [storeLine_eq]
  exact Memory.read_foldl_write_of_mem (lineAddr_injective hfits) (fun k => s.line[k])
    ((mem_storedEntries_iff k).2 hk) hwf

theorem memRead_storeLine_of_ne {dir : Bool} {s : State} {a : Nat}
    (h : ∀ k : Fin 8, 1 ≤ k.val → k.val ≤ 6 → a ≠ lineAddr dir s.regs k.val) :
    (storeLine dir s).memRead a = s.memRead a := by
  rw [storeLine_eq]
  exact Memory.read_foldl_write_of_ne (fun k => s.line[k])
    (fun k hk => ((mem_storedEntries_iff k).1 hk).elim (h k)) s.sm

/-- A completed line store changes nothing but the sample memory and `CIX` (44_deblock.md R200). -/
theorem storeLine_complete_eq (dir : Bool) (s : State) :
    (storeLine dir s).complete = { s with sm := (storeLine dir s).complete.sm, cix := s.cix + 1 } := by
  simp only [storeLine_eq, State.complete]

@[simp] theorem State.memRead_complete (s : State) (a : Nat) : s.complete.memRead a = s.memRead a := rfl

/-- Settles O49: the middle six samples read back at their addresses, and no other address is written. -/
theorem stlnStoresTheMiddleSix : Obligations.StlnStoresTheMiddleSix := by
  refine fun dir s hwf => ⟨fun hfits => ⟨_, exec_stln_of_fits hfits, storeLine_complete_eq dir s, ?_⟩,
    exec_stln_of_not_fits⟩
  simp only [State.memRead_complete]
  exact ⟨fun k hlow hhigh => memRead_storeLine_of_stored hwf hfits ⟨hlow, hhigh⟩, fun a => memRead_storeLine_of_ne⟩

/-- Storing the samples that stand at the line's addresses already leaves the memory as it is, for canonical memories
that read the same are the same (20_memory.md R77). -/
theorem storeLine_sm_of_stands {dir : Bool} {s : State} (hwf : Memory.wf s.sm) (hfits : LineFits dir s)
    (hline : ∀ k : Fin 8, s.line[k] = s.memRead (lineAddr dir s.regs k.val)) : (storeLine dir s).sm = s.sm := by
  refine canonicalMemoriesAreEqualWhenTheyReadEqual _ _ (storeLine_wf hwf dir) hwf fun a => ?_
  change (storeLine dir s).memRead a = s.memRead a
  by_cases hstored : ∃ k : Fin 8, (1 ≤ k.val ∧ k.val ≤ 6) ∧ a = lineAddr dir s.regs k.val
  · obtain ⟨k, hk, rfl⟩ := hstored
    rw [memRead_storeLine_of_stored hwf hfits hk, hline]
  · exact memRead_storeLine_of_ne fun k hlow hhigh heq => hstored ⟨k, ⟨hlow, hhigh⟩, heq⟩

/-- Settles O50: the stored samples are the ones LDLN found at the line's addresses. -/
theorem loadThenStoreKeepsTheSampleMemory : Obligations.LoadThenStoreKeepsTheSampleMemory := by
  intro dir s hwf hfits
  have hloaded : LineFits dir (s.withLine (loadLine dir s)).complete := hfits
  refine ⟨_, _, exec_ldln_of_fits hfits, exec_stln_of_fits hloaded, ?_⟩
  rw [State.complete_sm]
  exact storeLine_sm_of_stands hwf hloaded (getElem_loadLine dir s)

end Sys2Proof.Machine
end

section
/-! PROOF. Faults and the host (60_exceptions.md R225, R231 to R234): the word a fault records, the ACK that leaves DONE, and
what the host's actions leave of a state in FAULT. -/

namespace Sys2Proof.Machine

/-! ### The recorded word (60_exceptions.md R225) -/

/-- Settles O2: the opcode and the fields the decoder reads, with the bits it requires to be 0, are all the bits of the
word. -/
theorem decodedCommandEncodesItsWord : Obligations.DecodedCommandEncodesItsWord := fun _ _ => encode_of_decode

/-! ### ACK (60_exceptions.md R233) -/

/-- ACK takes DONE to RUN and changes nothing else. -/
theorem State.ack_of_done {s : State} (h : s.status = .done) : s.ack = s.withStatus .run := by
  obtain ⟨-, heq⟩ | ⟨hdone, -⟩ := s.ack_cases
  · exact heq
  · exact absurd h hdone

/-- ACK does nothing outside DONE (60_exceptions.md R233). -/
theorem State.ack_of_not_done {s : State} (h : s.status ≠ .done) : s.ack = s := by
  obtain ⟨hdone, -⟩ | ⟨-, heq⟩ := s.ack_cases
  · exact absurd hdone h
  · exact heq

/-- A write of `HCTRL` with RST set is the soft reset, whatever the other bits are (10_state.md R46). -/
theorem portWrite_hctrl_of_rst {v : Word} (hrst : v.getLsbD 0 = true) (s : State) :
    portWrite 0x000 v s = .next s.softReset := congrArg _ (if_pos hrst)

/-- A write of `HCTRL` with RST clear and ACK set is the ACK. -/
theorem portWrite_hctrl_of_ack {v : Word} (hack : v.getLsbD 1 = true) (hrst : v.getLsbD 0 = false) (s : State) :
    portWrite 0x000 v s = .next s.ack := by
  have hctrl : writeHctrl v s = s.ack := by simp only [writeHctrl, hrst, hack, Bool.false_eq_true, if_false, if_true]
  exact congrArg _ hctrl

/-- Settles O54: the write is the ACK or the reset by its bit 0, and a step from RUN executes the head of the queue. -/
theorem ackReturnsOnlyFromDone : Obligations.AckReturnsOnlyFromDone := by
  refine fun v s hack => ⟨fun hrst hdone => ?_, fun hrst hdone => ?_, fun hrst => portWrite_hctrl_of_rst hrst s,
    fun _ w rest i hq hdec => step_of_decode_ok rfl hq hdec⟩
  · rw [portWrite_hctrl_of_ack hack hrst, State.ack_of_done hdone]
    rfl
  · rw [portWrite_hctrl_of_ack hack hrst, State.ack_of_not_done hdone]

/-! ### FAULT (60_exceptions.md R231, R232, R234) -/

/-- `t` is `s` but for words that entered at the end of the queue, the pushes that wait, the sample memory and the
model's draw counter; words enter in the order in which they were pushed (10_state.md R44). -/
def DiffersByPushesAndMemory (s t : State) : Prop :=
  ∃ entered pushed, t = { s with
      queue := s.queue ++ entered, waiting := t.waiting, sm := t.sm, freeCtr := t.freeCtr } ∧
    entered ++ t.waiting = s.waiting ++ pushed

/-- Where no word enters and none is pushed, only the sample memory and the draw counter can differ. -/
theorem differsByPushesAndMemory_of_eq {s t : State} (h : t = { s with sm := t.sm, freeCtr := t.freeCtr }) :
    DiffersByPushesAndMemory s t := by
  have hwaiting : t.waiting = s.waiting := by rw [h]
  refine ⟨[], [], ?_, by rw [List.nil_append, List.append_nil, hwaiting]⟩
  rw [List.append_nil, hwaiting]
  exact h

/-- The pushed word enters the queue, or waits behind the others. -/
theorem push_differsByPushesAndMemory (w : Word) (s : State) : DiffersByPushesAndMemory s (push w s) := by
  obtain ⟨hnil, -, heq⟩ | ⟨-, heq⟩ := push_cases w s
  · exact ⟨[w], [w], by rw [heq], by rw [heq, hnil]; rfl⟩
  · exact ⟨[], [w], by rw [heq, List.append_nil], by rw [heq]; rfl⟩

/-- The word that enters the queue is the first of those that wait. -/
theorem completePush_differsByPushesAndMemory (s : State) : DiffersByPushesAndMemory s (completePush s) := by
  obtain ⟨w, rest, hw, -, heq⟩ | ⟨-, heq⟩ := completePush_cases s
  · exact ⟨[w], [], by rw [heq], by rw [heq, hw, List.append_nil]; rfl⟩
  · exact differsByPushesAndMemory_of_eq (by rw [heq])

/-- Outside DONE, where ACK does nothing, no effect of the host but a reset reaches the rest of the state. -/
theorem HostEffect.differsByPushesAndMemory {a : HostAction} {s t : State} (ht : HostEffect s a t)
    (hstatus : s.status ≠ .done) (hreset : ∀ v : Word, v.getLsbD 0 = true → a ≠ .portWrite 0x000 v) :
    DiffersByPushesAndMemory s t := by
  cases ht with
  | reset hrst => exact absurd rfl (hreset _ hrst)
  | ack => exact differsByPushesAndMemory_of_eq (by rw [State.ack_of_not_done hstatus])
  | push w => exact push_differsByPushesAndMemory w s
  | pushCompletes => exact completePush_differsByPushesAndMemory s
  | smWrite | draw | nothing => exact differsByPushesAndMemory_of_eq rfl

/-- Settles O55: in FAULT the sequencer is not enabled, and of the effects of the host's actions only the reset reaches
more than the queue's end, the memory and the draw counter. -/
theorem faultIsLeftOnlyByReset : Obligations.FaultIsLeftOnlyByReset := by
  refine fun s hfault => ⟨step_of_not_enabled (.inl (by simp [hfault])), fun a t h hreset => ?_⟩
  exact (hostAct_effect h).differsByPushesAndMemory (by simp [hfault]) hreset

end Sys2Proof.Machine
end

section
/-! PROOF. Reset and the queue's end (70_reset_and_hazards.md R250, R253, R264): the values every reset leaves, the invariant
right after reset, and the number of steps after which the block is quiescent. -/

namespace Sys2Proof.Machine

/-! ### The reset values (70_reset_and_hazards.md R253) -/

/-- Every control register reads 0 after reset (10_state.md R26). -/
@[simp] theorem CtrlRegs.read_zero (r : CReg) : CtrlRegs.zero.read r = 0 := by
  cases r <;> rfl

/-- The state holds the values R253 states for reset: those of every field but the data files, the sample memory and the
configuration. -/
structure State.ResetValues (t : State) : Prop where
  status : t.status = .run
  cix : t.cix = 0
  faultCause : t.faultCause = .none
  faultCmd : t.faultCmd = 0
  faultCix : t.faultCix = 0
  queue : t.queue = []
  regs : t.regs = CtrlRegs.zero

theorem State.resetValues_boot (cfg : Config) : (State.boot cfg).ResetValues := ⟨rfl, rfl, rfl, rfl, rfl, rfl, rfl⟩

theorem State.resetValues_softReset (s : State) : s.softReset.ResetValues := ⟨rfl, rfl, rfl, rfl, rfl, rfl, rfl⟩

/-- The hard reset differs from the soft reset in the sample memory alone, which R253 gives no value (R250, R252). -/
theorem State.resetValues_hardReset (s : State) : s.hardReset.ResetValues := ⟨rfl, rfl, rfl, rfl, rfl, rfl, rfl⟩

@[simp] theorem State.hardReset_cfg (s : State) : s.hardReset.cfg = s.cfg := by
  simp only [State.hardReset, State.softReset_cfg]

/-- Outside RUN alone `irq` is 1 (10_state.md R45). -/
theorem State.irq_eq_false_of_run {t : State} (h : t.status = .run) : t.irq = false :=
  Bool.eq_false_iff.2 fun hirq => (irqIsStateNotRun t).1 hirq h

/-- Settles O60: the reset state and the results of both resets hold the reset values, and a write of `HCTRL` with RST set
is the soft reset. -/
theorem resetLeavesTheStatedValues : Obligations.ResetLeavesTheStatedValues := by
  refine ⟨fun t ht => ?_, fun _ s hrst => portWrite_hctrl_of_rst hrst s, fun s =>
    ⟨s.softReset_sm, s.softReset_cfg, s.hardReset_cfg⟩⟩
  have hvalues : t.ResetValues := by
    obtain rfl | ⟨s, rfl | rfl⟩ := ht
    · exact State.resetValues_boot defaultConfig
    · exact s.resetValues_softReset
    · exact s.resetValues_hardReset
  obtain ⟨hstatus, hcix, hcause, hcmd, hfcix, hqueue, hregs⟩ := hvalues
  rw [hregs]
  exact ⟨hstatus, State.irq_eq_false_of_run hstatus, hcix, hcause, hcmd, hfcix, hqueue, CtrlRegs.legal_zero,
    CtrlRegs.read_zero⟩

/-! ### The invariant at reset -/

/-- The default sizes and tables have the stated shapes (00_scope.md R6, R7; logs 3 to 5). -/
theorem defaultConfig_wf : defaultConfig.Wf := by decide

/-- A block booted under a configuration of the stated shape meets the invariant; its memory lists no byte (log 2). -/
theorem State.inv_boot {cfg : Config} (h : cfg.Wf) : (State.boot cfg).Inv where
  cfgWf := h
  regsLegal := CtrlRegs.legal_zero
  capture := ⟨fun _ => ⟨rfl, rfl, rfl⟩, nofun⟩
  smCanonical := Memory.wf_nil
  smBounded := nofun
  queueFits := Nat.zero_le _

/-- Settles O13: the default configuration has the stated shape. -/
theorem resetMeetsTheInvariant : Obligations.ResetMeetsTheInvariant := State.inv_boot defaultConfig_wf

/-! ### The queue drains or the block halts (70_reset_and_hazards.md R264) -/

/-- Quiescent is the sequencer's not being enabled (00_scope.md R18, 30_encoding.md R104). -/
theorem State.quiescent_iff (s : State) : s.quiescent = true ↔ s.status ≠ .run ∨ s.queue = [] := by
  simp [State.quiescent]

theorem core_run_succ {s t : State} (h : step s = .next t) (k : Nat) : core.run (k + 1) s = core.run k t := by
  have hstep : core.step s = .next t := h
  simp only [Host.Core.run, hstep]

/-- A quiescent block stays as it is, however many steps it is given. -/
theorem core_run_of_quiescent {s : State} (h : s.quiescent = true) (k : Nat) : core.run k s = .next s := by
  induction k with
  | zero => rfl
  | succ k ih => exact (core_run_succ (step_of_not_enabled (s.quiescent_iff.1 h)) k).trans ih

/-- Every step of a block that is not quiescent takes one word, and no step stops the model; so no more steps are needed
than words are queued. -/
theorem core_run_quiescent_of_length_le {k : Nat} {s : State} (hk : s.queue.length ≤ k) :
    ∃ t, core.run k s = .next t ∧ t.quiescent = true := by
  induction k generalizing s with
  | zero => exact ⟨s, rfl, s.quiescent_iff.2 (.inr (List.length_eq_zero_iff.1 (Nat.le_zero.1 hk)))⟩
  | succ k ih =>
    by_cases hrun : s.status = .run
    · obtain ⟨t, hstep⟩ := step_total s
      obtain ⟨htail, -, -⟩ := step_queue_of_run hrun hstep
      have hlen : t.queue.length ≤ k := by
        rw [htail, List.length_tail]
        omega
      rw [core_run_succ hstep]
      exact ih hlen
    · have hquiet := s.quiescent_iff.2 (.inl hrun)
      exact ⟨s, core_run_of_quiescent hquiet _, hquiet⟩

/-- Settles O10: the bound at the queue's own length. -/
theorem queueDrainsOrTheBlockHalts : Obligations.QueueDrainsOrTheBlockHalts :=
  fun _ => core_run_quiescent_of_length_le (Nat.le_refl _)

end Sys2Proof.Machine
end
